-- ==== Sys2Proof/Word.lean ====
section
/-!
DEFINITION. Word.lean: the words of the machine (00_scope.md R7, R10).
-/

namespace Sys2Proof

/-- A byte: A, X, Y, S and the bus data are eight bits wide (R7). -/
abbrev Byte := BitVec 8

/-- A CPU address, and the program counter: sixteen bits (R7). -/
abbrev Addr := BitVec 16

/-- A PPU address: fourteen bits (R7, R550). -/
abbrev VAddr := BitVec 14

/-- The PPU's scroll registers v and t: fifteen bits (R520, R554). -/
abbrev Scroll := BitVec 15

/-- A palette entry: a six-bit colour index (R552). -/
abbrev ColourIndex := BitVec 6

/-- A resolved colour, written as a number: the spec gives its format nowhere (R591). -/
abbrev Colour := Nat

end Sys2Proof
end

