-- ==== Sys2Proof/Machine/Bits.lean ====
section
/-!
DEFINITION. Machine/Bits.lean: the bit-field and byte-order helpers (00_scope.md R10, 20_memory.md R82).
-/

namespace Sys2Proof

/-- Bits 7:0 of an address (R10). -/
def lo8 (a : Addr) : Byte := a.setWidth 8

/-- Bits 15:8 of an address (R10). -/
def hi8 (a : Addr) : Byte := (a >>> 8).setWidth 8

/-- `{hi, lo}`, the little-endian pair put together (R10, R82). -/
def word (hi lo : Byte) : Addr := hi ++ lo

/-- `zext_16` (R10). -/
def zext16 (v : Byte) : Addr := v.setWidth 16

/-- `sext_16` (R10). -/
def sext16 (v : Byte) : Addr := v.signExtend 16

/-- `v[i]` of a byte (R10). -/
def bit (v : Byte) (i : Nat) : Bool := v.getLsbD i

/-- A byte with its bits in the opposite order: `Reverse8` of the horizontal flip (R584). -/
def reverse8 (v : Byte) : Byte := v.reverse

end Sys2Proof
end

