-- ==== Sys2Proof/Config.lean ====
section
/-!
DEFINITION. Config.lean: the free values the spec leaves open (draws and open parameters), which have no body, so
that nothing can be proved of their values; and the named parameters of R8 that have a default.
-/

namespace Sys2Proof

/-- A draw (R13, R99): the byte an undriven read returns, for the `k`-th draw made, at the site `site` (the CPU
address read, or the register index). Notes 4. -/
opaque Config.drawByte (k site : Nat) : BitVec 8

/-- The host oracle CONTROLLER (R96): the answer of port `port` when it is the `k`-th draw made. Notes 4. -/
opaque Config.controllerByte (k port : Nat) : BitVec 8

/-- PPU_POWER_RAM (R8, R522): the power-on contents of OAM. Notes 5. -/
opaque Config.oamPower (i : Nat) : BitVec 8

/-- PPU_POWER_RAM (R8, R522): the power-on contents of secondary OAM. Notes 5. -/
opaque Config.secPower (i : Nat) : BitVec 8

/-- PPU_POWER_RAM (R8, R522): the power-on contents of nametable RAM. Notes 5. -/
opaque Config.ciramPower (i : Nat) : BitVec 8

/-- PPU_POWER_RAM (R8, R522): the power-on contents of palette RAM. Notes 5. -/
opaque Config.palettePower (i : Nat) : BitVec 6

/-- PRG_RAM_POWER (R8, R620): the initial contents of cartridge PRG-RAM. Notes 5. -/
opaque Config.prgRamPower (i : Nat) : BitVec 8

/-- PRG_RAM_POWER (R8, R620): the initial contents of CHR-RAM. Notes 5. -/
opaque Config.chrRamPower (i : Nat) : BitVec 8

/-- The power-on colours of the framebuffer (R522, a draw): of the power-on whose draw number is `epoch`, at column
`x` of line `y`. Notes 6. -/
opaque Config.framePower (epoch x y : Nat) : Nat

/-- MASTER_PALETTE (R8, R591): the resolved colour of a six-bit colour index. -/
opaque Config.masterPalette (c : BitVec 6) : Nat

/-- The pattern byte a sprite slot gets when its row is outside the sprite (R584 states the address only for a row
in 0..h-1), as a function of all that a pattern fetch could depend on: the plane (0 low, 1 high), the line, PPUCTRL,
the slot's four bytes, the cartridge's CHR bytes and the places where its two pattern tables begin in them. Notes 9. -/
opaque Config.strayPattern (plane line : Nat) (ctrl y tile attr x : BitVec 8) (chr : List (Nat × BitVec 8))
  (table0 table1 : Nat) : BitVec 8

/-- UNDEFINED_OPCODE_POLICY (R8, R440, R441). -/
inductive UndefinedPolicy where
  /-- The hardware's behaviour: a one-byte no-op with a diagnostic (R440). -/
  | nop
  /-- The model's option: the step stops with a fault (R441). -/
  | fault
  deriving DecidableEq, Repr

/-- The 80 opcodes to which UNOFFICIAL_SET can give a handler, all of them by default, in the order of R420's table. -/
def unofficialOpcodes : List (BitVec 8) :=
  [ 0x1A#8, 0x3A#8, 0x5A#8, 0x7A#8, 0xDA#8, 0xFA#8, 0x80#8, 0x82#8, 0x89#8, 0xC2#8, 0xE2#8, 0x04#8, 0x44#8, 0x64#8 ] ++
  [ 0x14#8, 0x34#8, 0x54#8, 0x74#8, 0xD4#8, 0xF4#8, 0x0C#8, 0x1C#8, 0x3C#8, 0x5C#8, 0x7C#8, 0xDC#8, 0xFC#8 ] ++
  [ 0xA3#8, 0xA7#8, 0xAF#8, 0xB3#8, 0xB7#8, 0xBF#8, 0x83#8, 0x87#8, 0x8F#8, 0x97#8, 0xEB#8 ] ++
  [ 0xC3#8, 0xC7#8, 0xCF#8, 0xD3#8, 0xD7#8, 0xDB#8, 0xDF#8 ] ++
  [ 0xE3#8, 0xE7#8, 0xEF#8, 0xF3#8, 0xF7#8, 0xFB#8, 0xFF#8 ] ++
  [ 0x03#8, 0x07#8, 0x0F#8, 0x13#8, 0x17#8, 0x1B#8, 0x1F#8 ] ++
  [ 0x23#8, 0x27#8, 0x2F#8, 0x33#8, 0x37#8, 0x3B#8, 0x3F#8 ] ++
  [ 0x43#8, 0x47#8, 0x4F#8, 0x53#8, 0x57#8, 0x5B#8, 0x5F#8 ] ++
  [ 0x63#8, 0x67#8, 0x6F#8, 0x73#8, 0x77#8, 0x7B#8, 0x7F#8 ]

/-- The named parameters of R8 that change what the machine does and have a default. They stand in State, so that a
statement for every state holds for every value of them; no step changes them. Notes 2. -/
structure Params where
  /-- RAM_POISON: what power() writes into every work-RAM byte (R670). -/
  ramPoison : BitVec 8 := 0xFF#8
  /-- UNDEFINED_OPCODE_POLICY (R440, R441). -/
  undefinedPolicy : UndefinedPolicy := .nop
  /-- UNOFFICIAL_SET: the unofficial opcodes that have a handler (R137, R420). -/
  unofficialSet : List (BitVec 8) := unofficialOpcodes
  /-- BRK_RETURN_OFFSET: bytes past the BRK opcode's address that BRK pushes (R400). -/
  brkReturnOffset : BitVec 16 := 2#16
  /-- OAM_DMA_ENABLED: whether a write to 0x4014 performs sprite DMA (R95). -/
  oamDmaEnabled : Bool := false
  deriving DecidableEq, Repr

/-- The defaults of R8. -/
def Params.default : Params := {}

/-- UNOFFICIAL_SET leaves this unofficial opcode out, so that it is undefined (R420, R440). A model may give no other
opcode a handler (R420), so what the set says of one that is not unofficial counts for nothing. -/
def Params.removes (p : Params) (op : BitVec 8) : Bool :=
  unofficialOpcodes.contains op && !p.unofficialSet.contains op

end Sys2Proof
end

