-- ==== Sys2Proof/Syntax.lean ====
section
/-!
DEFINITION. Syntax.lean: the addressing modes (30_encoding.md R133) and the instructions, one constructor for each of
the 256 rows of spec/opcode_table.json (R135). A constructor carries the operand bytes the CPU has fetched when the
instruction's operation starts: a byte, or the two bytes of an absolute address put together. JSR carries its low
operand byte only, because it reads the high one itself, after its pushes (R362; notes 3).
-/

namespace Sys2Proof

/-- The thirteen addressing modes (R133). -/
inductive Mode where
  | impl | acc | imm | zp | zpx | zpy | abs | abx | aby | ind | izx | izy | rel
  deriving DecidableEq, Repr

/-- The length in bytes of an instruction of this mode (R140). -/
def Mode.length : Mode → Nat
  | .impl | .acc => 1
  | .imm | .zp | .zpx | .zpy | .izx | .izy | .rel => 2
  | .abs | .abx | .aby | .ind => 3

/-- The instructions: one constructor per row of spec/opcode_table.json. -/
inductive Instr where
  -- Load and store (41_load_store.md)
  /-- 0xA1, LDA izx (R220). -/
  | ldaIzx (b : Byte)
  /-- 0xA5, LDA zp (R220). -/
  | ldaZp (b : Byte)
  /-- 0xA9, LDA imm (R220). -/
  | ldaImm (v : Byte)
  /-- 0xAD, LDA abs (R220). -/
  | ldaAbs (a : Addr)
  /-- 0xB1, LDA izy (R220). -/
  | ldaIzy (b : Byte)
  /-- 0xB5, LDA zpx (R220). -/
  | ldaZpx (b : Byte)
  /-- 0xB9, LDA aby (R220). -/
  | ldaAby (a : Addr)
  /-- 0xBD, LDA abx (R220). -/
  | ldaAbx (a : Addr)
  /-- 0xA2, LDX imm (R221). -/
  | ldxImm (v : Byte)
  /-- 0xA6, LDX zp (R221). -/
  | ldxZp (b : Byte)
  /-- 0xAE, LDX abs (R221). -/
  | ldxAbs (a : Addr)
  /-- 0xB6, LDX zpy (R221). -/
  | ldxZpy (b : Byte)
  /-- 0xBE, LDX aby (R221). -/
  | ldxAby (a : Addr)
  /-- 0xA0, LDY imm (R222). -/
  | ldyImm (v : Byte)
  /-- 0xA4, LDY zp (R222). -/
  | ldyZp (b : Byte)
  /-- 0xAC, LDY abs (R222). -/
  | ldyAbs (a : Addr)
  /-- 0xB4, LDY zpx (R222). -/
  | ldyZpx (b : Byte)
  /-- 0xBC, LDY abx (R222). -/
  | ldyAbx (a : Addr)
  /-- 0x81, STA izx (R223). -/
  | staIzx (b : Byte)
  /-- 0x85, STA zp (R223). -/
  | staZp (b : Byte)
  /-- 0x8D, STA abs (R223). -/
  | staAbs (a : Addr)
  /-- 0x91, STA izy (R223). -/
  | staIzy (b : Byte)
  /-- 0x95, STA zpx (R223). -/
  | staZpx (b : Byte)
  /-- 0x99, STA aby (R223). -/
  | staAby (a : Addr)
  /-- 0x9D, STA abx (R223). -/
  | staAbx (a : Addr)
  /-- 0x86, STX zp (R224). -/
  | stxZp (b : Byte)
  /-- 0x8E, STX abs (R224). -/
  | stxAbs (a : Addr)
  /-- 0x96, STX zpy (R224). -/
  | stxZpy (b : Byte)
  /-- 0x84, STY zp (R225). -/
  | styZp (b : Byte)
  /-- 0x8C, STY abs (R225). -/
  | styAbs (a : Addr)
  /-- 0x94, STY zpx (R225). -/
  | styZpx (b : Byte)
  -- Register transfers (42_transfer.md)
  /-- 0xAA, TAX implied (R240). -/
  | tax
  /-- 0xA8, TAY implied (R241). -/
  | tay
  /-- 0x8A, TXA implied (R242). -/
  | txa
  /-- 0x98, TYA implied (R243). -/
  | tya
  /-- 0xBA, TSX implied (R244). -/
  | tsx
  /-- 0x9A, TXS implied (R245). -/
  | txs
  -- Arithmetic, increment and decrement (43_arithmetic.md)
  /-- 0x61, ADC izx (R260). -/
  | adcIzx (b : Byte)
  /-- 0x65, ADC zp (R260). -/
  | adcZp (b : Byte)
  /-- 0x69, ADC imm (R260). -/
  | adcImm (v : Byte)
  /-- 0x6D, ADC abs (R260). -/
  | adcAbs (a : Addr)
  /-- 0x71, ADC izy (R260). -/
  | adcIzy (b : Byte)
  /-- 0x75, ADC zpx (R260). -/
  | adcZpx (b : Byte)
  /-- 0x79, ADC aby (R260). -/
  | adcAby (a : Addr)
  /-- 0x7D, ADC abx (R260). -/
  | adcAbx (a : Addr)
  /-- 0xE1, SBC izx (R261). -/
  | sbcIzx (b : Byte)
  /-- 0xE5, SBC zp (R261). -/
  | sbcZp (b : Byte)
  /-- 0xE9, SBC imm (R261). -/
  | sbcImm (v : Byte)
  /-- 0xEB, SBC imm (R424). -/
  | sbcImmEB (v : Byte)
  /-- 0xED, SBC abs (R261). -/
  | sbcAbs (a : Addr)
  /-- 0xF1, SBC izy (R261). -/
  | sbcIzy (b : Byte)
  /-- 0xF5, SBC zpx (R261). -/
  | sbcZpx (b : Byte)
  /-- 0xF9, SBC aby (R261). -/
  | sbcAby (a : Addr)
  /-- 0xFD, SBC abx (R261). -/
  | sbcAbx (a : Addr)
  /-- 0xE6, INC zp (R263). -/
  | incZp (b : Byte)
  /-- 0xEE, INC abs (R263). -/
  | incAbs (a : Addr)
  /-- 0xF6, INC zpx (R263). -/
  | incZpx (b : Byte)
  /-- 0xFE, INC abx (R263). -/
  | incAbx (a : Addr)
  /-- 0xC6, DEC zp (R264). -/
  | decZp (b : Byte)
  /-- 0xCE, DEC abs (R264). -/
  | decAbs (a : Addr)
  /-- 0xD6, DEC zpx (R264). -/
  | decZpx (b : Byte)
  /-- 0xDE, DEC abx (R264). -/
  | decAbx (a : Addr)
  /-- 0xE8, INX implied (R265). -/
  | inx
  /-- 0xC8, INY implied (R266). -/
  | iny
  /-- 0xCA, DEX implied (R267). -/
  | dex
  /-- 0x88, DEY implied (R268). -/
  | dey
  -- Logical (44_logical.md)
  /-- 0x21, AND izx (R290). -/
  | andIzx (b : Byte)
  /-- 0x25, AND zp (R290). -/
  | andZp (b : Byte)
  /-- 0x29, AND imm (R290). -/
  | andImm (v : Byte)
  /-- 0x2D, AND abs (R290). -/
  | andAbs (a : Addr)
  /-- 0x31, AND izy (R290). -/
  | andIzy (b : Byte)
  /-- 0x35, AND zpx (R290). -/
  | andZpx (b : Byte)
  /-- 0x39, AND aby (R290). -/
  | andAby (a : Addr)
  /-- 0x3D, AND abx (R290). -/
  | andAbx (a : Addr)
  /-- 0x01, ORA izx (R291). -/
  | oraIzx (b : Byte)
  /-- 0x05, ORA zp (R291). -/
  | oraZp (b : Byte)
  /-- 0x09, ORA imm (R291). -/
  | oraImm (v : Byte)
  /-- 0x0D, ORA abs (R291). -/
  | oraAbs (a : Addr)
  /-- 0x11, ORA izy (R291). -/
  | oraIzy (b : Byte)
  /-- 0x15, ORA zpx (R291). -/
  | oraZpx (b : Byte)
  /-- 0x19, ORA aby (R291). -/
  | oraAby (a : Addr)
  /-- 0x1D, ORA abx (R291). -/
  | oraAbx (a : Addr)
  /-- 0x41, EOR izx (R292). -/
  | eorIzx (b : Byte)
  /-- 0x45, EOR zp (R292). -/
  | eorZp (b : Byte)
  /-- 0x49, EOR imm (R292). -/
  | eorImm (v : Byte)
  /-- 0x4D, EOR abs (R292). -/
  | eorAbs (a : Addr)
  /-- 0x51, EOR izy (R292). -/
  | eorIzy (b : Byte)
  /-- 0x55, EOR zpx (R292). -/
  | eorZpx (b : Byte)
  /-- 0x59, EOR aby (R292). -/
  | eorAby (a : Addr)
  /-- 0x5D, EOR abx (R292). -/
  | eorAbx (a : Addr)
  /-- 0x24, BIT zp (R293). -/
  | bitZp (b : Byte)
  /-- 0x2C, BIT abs (R293). -/
  | bitAbs (a : Addr)
  -- Shifts and rotates (45_shift_rotate.md)
  /-- 0x06, ASL zp (R310). -/
  | aslZp (b : Byte)
  /-- 0x0A, ASL accumulator (R310). -/
  | aslAcc
  /-- 0x0E, ASL abs (R310). -/
  | aslAbs (a : Addr)
  /-- 0x16, ASL zpx (R310). -/
  | aslZpx (b : Byte)
  /-- 0x1E, ASL abx (R310). -/
  | aslAbx (a : Addr)
  /-- 0x46, LSR zp (R311). -/
  | lsrZp (b : Byte)
  /-- 0x4A, LSR accumulator (R311). -/
  | lsrAcc
  /-- 0x4E, LSR abs (R311). -/
  | lsrAbs (a : Addr)
  /-- 0x56, LSR zpx (R311). -/
  | lsrZpx (b : Byte)
  /-- 0x5E, LSR abx (R311). -/
  | lsrAbx (a : Addr)
  /-- 0x26, ROL zp (R312). -/
  | rolZp (b : Byte)
  /-- 0x2A, ROL accumulator (R312). -/
  | rolAcc
  /-- 0x2E, ROL abs (R312). -/
  | rolAbs (a : Addr)
  /-- 0x36, ROL zpx (R312). -/
  | rolZpx (b : Byte)
  /-- 0x3E, ROL abx (R312). -/
  | rolAbx (a : Addr)
  /-- 0x66, ROR zp (R313). -/
  | rorZp (b : Byte)
  /-- 0x6A, ROR accumulator (R313). -/
  | rorAcc
  /-- 0x6E, ROR abs (R313). -/
  | rorAbs (a : Addr)
  /-- 0x76, ROR zpx (R313). -/
  | rorZpx (b : Byte)
  /-- 0x7E, ROR abx (R313). -/
  | rorAbx (a : Addr)
  -- Compares (46_compare.md)
  /-- 0xC1, CMP izx (R330). -/
  | cmpIzx (b : Byte)
  /-- 0xC5, CMP zp (R330). -/
  | cmpZp (b : Byte)
  /-- 0xC9, CMP imm (R330). -/
  | cmpImm (v : Byte)
  /-- 0xCD, CMP abs (R330). -/
  | cmpAbs (a : Addr)
  /-- 0xD1, CMP izy (R330). -/
  | cmpIzy (b : Byte)
  /-- 0xD5, CMP zpx (R330). -/
  | cmpZpx (b : Byte)
  /-- 0xD9, CMP aby (R330). -/
  | cmpAby (a : Addr)
  /-- 0xDD, CMP abx (R330). -/
  | cmpAbx (a : Addr)
  /-- 0xE0, CPX imm (R331). -/
  | cpxImm (v : Byte)
  /-- 0xE4, CPX zp (R331). -/
  | cpxZp (b : Byte)
  /-- 0xEC, CPX abs (R331). -/
  | cpxAbs (a : Addr)
  /-- 0xC0, CPY imm (R332). -/
  | cpyImm (v : Byte)
  /-- 0xC4, CPY zp (R332). -/
  | cpyZp (b : Byte)
  /-- 0xCC, CPY abs (R332). -/
  | cpyAbs (a : Addr)
  -- Control flow (47_control_flow.md)
  /-- 0x10, BPL rel (R351). -/
  | bpl (d : Byte)
  /-- 0x30, BMI rel (R352). -/
  | bmi (d : Byte)
  /-- 0x50, BVC rel (R353). -/
  | bvc (d : Byte)
  /-- 0x70, BVS rel (R354). -/
  | bvs (d : Byte)
  /-- 0x90, BCC rel (R355). -/
  | bcc (d : Byte)
  /-- 0xB0, BCS rel (R356). -/
  | bcs (d : Byte)
  /-- 0xD0, BNE rel (R357). -/
  | bne (d : Byte)
  /-- 0xF0, BEQ rel (R358). -/
  | beq (d : Byte)
  /-- 0x4C, JMP abs (R360). -/
  | jmpAbs (a : Addr)
  /-- 0x6C, JMP ind (R361). -/
  | jmpInd (a : Addr)
  /-- 0x20, JSR abs (R362). -/
  | jsr (lo : Byte)
  /-- 0x60, RTS implied (R363). -/
  | rts
  -- Stack, flags and system (48_stack_flags_system.md)
  /-- 0x48, PHA implied (R380). -/
  | pha
  /-- 0x08, PHP implied (R381). -/
  | php
  /-- 0x68, PLA implied (R382). -/
  | pla
  /-- 0x28, PLP implied (R383). -/
  | plp
  /-- 0x18, CLC implied (R390). -/
  | clc
  /-- 0x38, SEC implied (R391). -/
  | sec
  /-- 0x58, CLI implied (R392). -/
  | cli
  /-- 0x78, SEI implied (R393). -/
  | sei
  /-- 0xD8, CLD implied (R394). -/
  | cld
  /-- 0xF8, SED implied (R395). -/
  | sed
  /-- 0xB8, CLV implied (R396). -/
  | clv
  /-- 0x00, BRK implied (R400). -/
  | brk
  /-- 0x40, RTI implied (R401). -/
  | rti
  /-- 0x04, NOP zp (R421). -/
  | nop04 (b : Byte)
  /-- 0x0C, NOP abs (R421). -/
  | nop0C (a : Addr)
  /-- 0x14, NOP zpx (R421). -/
  | nop14 (b : Byte)
  /-- 0x1A, NOP implied (R421). -/
  | nop1A
  /-- 0x1C, NOP abx (R421). -/
  | nop1C (a : Addr)
  /-- 0x34, NOP zpx (R421). -/
  | nop34 (b : Byte)
  /-- 0x3A, NOP implied (R421). -/
  | nop3A
  /-- 0x3C, NOP abx (R421). -/
  | nop3C (a : Addr)
  /-- 0x44, NOP zp (R421). -/
  | nop44 (b : Byte)
  /-- 0x54, NOP zpx (R421). -/
  | nop54 (b : Byte)
  /-- 0x5A, NOP implied (R421). -/
  | nop5A
  /-- 0x5C, NOP abx (R421). -/
  | nop5C (a : Addr)
  /-- 0x64, NOP zp (R421). -/
  | nop64 (b : Byte)
  /-- 0x74, NOP zpx (R421). -/
  | nop74 (b : Byte)
  /-- 0x7A, NOP implied (R421). -/
  | nop7A
  /-- 0x7C, NOP abx (R421). -/
  | nop7C (a : Addr)
  /-- 0x80, NOP imm (R421). -/
  | nop80 (v : Byte)
  /-- 0x82, NOP imm (R421). -/
  | nop82 (v : Byte)
  /-- 0x89, NOP imm (R421). -/
  | nop89 (v : Byte)
  /-- 0xC2, NOP imm (R421). -/
  | nopC2 (v : Byte)
  /-- 0xD4, NOP zpx (R421). -/
  | nopD4 (b : Byte)
  /-- 0xDA, NOP implied (R421). -/
  | nopDA
  /-- 0xDC, NOP abx (R421). -/
  | nopDC (a : Addr)
  /-- 0xE2, NOP imm (R421). -/
  | nopE2 (v : Byte)
  /-- 0xEA, NOP implied (R402). -/
  | nop
  /-- 0xF4, NOP zpx (R421). -/
  | nopF4 (b : Byte)
  /-- 0xFA, NOP implied (R421). -/
  | nopFA
  /-- 0xFC, NOP abx (R421). -/
  | nopFC (a : Addr)
  -- Unofficial (49_unofficial.md)
  /-- 0xA3, LAX izx (R422). -/
  | laxIzx (b : Byte)
  /-- 0xA7, LAX zp (R422). -/
  | laxZp (b : Byte)
  /-- 0xAF, LAX abs (R422). -/
  | laxAbs (a : Addr)
  /-- 0xB3, LAX izy (R422). -/
  | laxIzy (b : Byte)
  /-- 0xB7, LAX zpy (R422). -/
  | laxZpy (b : Byte)
  /-- 0xBF, LAX aby (R422). -/
  | laxAby (a : Addr)
  /-- 0x83, SAX izx (R423). -/
  | saxIzx (b : Byte)
  /-- 0x87, SAX zp (R423). -/
  | saxZp (b : Byte)
  /-- 0x8F, SAX abs (R423). -/
  | saxAbs (a : Addr)
  /-- 0x97, SAX zpy (R423). -/
  | saxZpy (b : Byte)
  /-- 0xC3, DCP izx (R425). -/
  | dcpIzx (b : Byte)
  /-- 0xC7, DCP zp (R425). -/
  | dcpZp (b : Byte)
  /-- 0xCF, DCP abs (R425). -/
  | dcpAbs (a : Addr)
  /-- 0xD3, DCP izy (R425). -/
  | dcpIzy (b : Byte)
  /-- 0xD7, DCP zpx (R425). -/
  | dcpZpx (b : Byte)
  /-- 0xDB, DCP aby (R425). -/
  | dcpAby (a : Addr)
  /-- 0xDF, DCP abx (R425). -/
  | dcpAbx (a : Addr)
  /-- 0xE3, ISB izx (R426). -/
  | isbIzx (b : Byte)
  /-- 0xE7, ISB zp (R426). -/
  | isbZp (b : Byte)
  /-- 0xEF, ISB abs (R426). -/
  | isbAbs (a : Addr)
  /-- 0xF3, ISB izy (R426). -/
  | isbIzy (b : Byte)
  /-- 0xF7, ISB zpx (R426). -/
  | isbZpx (b : Byte)
  /-- 0xFB, ISB aby (R426). -/
  | isbAby (a : Addr)
  /-- 0xFF, ISB abx (R426). -/
  | isbAbx (a : Addr)
  /-- 0x03, SLO izx (R427). -/
  | sloIzx (b : Byte)
  /-- 0x07, SLO zp (R427). -/
  | sloZp (b : Byte)
  /-- 0x0F, SLO abs (R427). -/
  | sloAbs (a : Addr)
  /-- 0x13, SLO izy (R427). -/
  | sloIzy (b : Byte)
  /-- 0x17, SLO zpx (R427). -/
  | sloZpx (b : Byte)
  /-- 0x1B, SLO aby (R427). -/
  | sloAby (a : Addr)
  /-- 0x1F, SLO abx (R427). -/
  | sloAbx (a : Addr)
  /-- 0x23, RLA izx (R428). -/
  | rlaIzx (b : Byte)
  /-- 0x27, RLA zp (R428). -/
  | rlaZp (b : Byte)
  /-- 0x2F, RLA abs (R428). -/
  | rlaAbs (a : Addr)
  /-- 0x33, RLA izy (R428). -/
  | rlaIzy (b : Byte)
  /-- 0x37, RLA zpx (R428). -/
  | rlaZpx (b : Byte)
  /-- 0x3B, RLA aby (R428). -/
  | rlaAby (a : Addr)
  /-- 0x3F, RLA abx (R428). -/
  | rlaAbx (a : Addr)
  /-- 0x43, SRE izx (R429). -/
  | sreIzx (b : Byte)
  /-- 0x47, SRE zp (R429). -/
  | sreZp (b : Byte)
  /-- 0x4F, SRE abs (R429). -/
  | sreAbs (a : Addr)
  /-- 0x53, SRE izy (R429). -/
  | sreIzy (b : Byte)
  /-- 0x57, SRE zpx (R429). -/
  | sreZpx (b : Byte)
  /-- 0x5B, SRE aby (R429). -/
  | sreAby (a : Addr)
  /-- 0x5F, SRE abx (R429). -/
  | sreAbx (a : Addr)
  /-- 0x63, RRA izx (R430). -/
  | rraIzx (b : Byte)
  /-- 0x67, RRA zp (R430). -/
  | rraZp (b : Byte)
  /-- 0x6F, RRA abs (R430). -/
  | rraAbs (a : Addr)
  /-- 0x73, RRA izy (R430). -/
  | rraIzy (b : Byte)
  /-- 0x77, RRA zpx (R430). -/
  | rraZpx (b : Byte)
  /-- 0x7B, RRA aby (R430). -/
  | rraAby (a : Addr)
  /-- 0x7F, RRA abx (R430). -/
  | rraAbx (a : Addr)
  -- Undefined (49_unofficial.md R440)
  /-- 0x02, UNDEFINED implied (R440). -/
  | undef02
  /-- 0x0B, UNDEFINED implied (R440). -/
  | undef0B
  /-- 0x12, UNDEFINED implied (R440). -/
  | undef12
  /-- 0x22, UNDEFINED implied (R440). -/
  | undef22
  /-- 0x2B, UNDEFINED implied (R440). -/
  | undef2B
  /-- 0x32, UNDEFINED implied (R440). -/
  | undef32
  /-- 0x42, UNDEFINED implied (R440). -/
  | undef42
  /-- 0x4B, UNDEFINED implied (R440). -/
  | undef4B
  /-- 0x52, UNDEFINED implied (R440). -/
  | undef52
  /-- 0x62, UNDEFINED implied (R440). -/
  | undef62
  /-- 0x6B, UNDEFINED implied (R440). -/
  | undef6B
  /-- 0x72, UNDEFINED implied (R440). -/
  | undef72
  /-- 0x8B, UNDEFINED implied (R440). -/
  | undef8B
  /-- 0x92, UNDEFINED implied (R440). -/
  | undef92
  /-- 0x93, UNDEFINED implied (R440). -/
  | undef93
  /-- 0x9B, UNDEFINED implied (R440). -/
  | undef9B
  /-- 0x9C, UNDEFINED implied (R440). -/
  | undef9C
  /-- 0x9E, UNDEFINED implied (R440). -/
  | undef9E
  /-- 0x9F, UNDEFINED implied (R440). -/
  | undef9F
  /-- 0xAB, UNDEFINED implied (R440). -/
  | undefAB
  /-- 0xB2, UNDEFINED implied (R440). -/
  | undefB2
  /-- 0xBB, UNDEFINED implied (R440). -/
  | undefBB
  /-- 0xCB, UNDEFINED implied (R440). -/
  | undefCB
  /-- 0xD2, UNDEFINED implied (R440). -/
  | undefD2
  /-- 0xF2, UNDEFINED implied (R440). -/
  | undefF2
  deriving DecidableEq, Repr

end Sys2Proof
end

