-- ==== Sys2Proof/Machine/State.lean ====
section
/-!
DEFINITION. Machine/State.lean: the whole state of the machine as plain data (10_state.md R30, 65_ppu.md R520,
66_mapper.md R620), why a step can stop, and the state right after power() (70_reset_and_hazards.md R673).
-/

namespace Sys2Proof.Machine

/-- A memory: its entries by index. With bytes it is a list of Host.Cell. Its canonical form is `Memory.wf`
(Machine/Cells.lean). -/
abbrev Memory (α : Type) := List (Nat × α)

/-- The six stored status flags (R37). -/
structure Flags where
  /-- Carry (R38). -/
  c : Bool
  /-- Zero (R39). -/
  z : Bool
  /-- Interrupt disable (R40). -/
  i : Bool
  /-- Decimal, with no numeric effect (R41). -/
  d : Bool
  /-- Overflow (R42). -/
  v : Bool
  /-- Negative (R43). -/
  n : Bool
  deriving DecidableEq, Repr

/-- The framebuffer (R592): for each line and column the colour index that was resolved into it, after the greyscale
mask (R591); its colour is `FrameBuffer.colour`. A pixel not listed has not been written since the power-on whose draw
number is `epoch` (R522). -/
structure FrameBuffer where
  epoch : Nat
  rows : Memory (Memory (BitVec 6))
  deriving DecidableEq, Repr

/-- One of the eight sprite slots of the current scanline (R520: spX, spAttr, spLo, spHi). -/
structure SpriteSlot where
  x : BitVec 8
  attr : BitVec 8
  lo : BitVec 8
  hi : BitVec 8
  deriving DecidableEq, Repr

/-- A slot of zeros: what power() leaves (R522). -/
def SpriteSlot.zero : SpriteSlot := ⟨0#8, 0#8, 0#8, 0#8⟩

/-- The PPU state (R520). -/
structure Ppu where
  scanline : Nat
  dot : Nat
  ctrl : BitVec 8
  mask : BitVec 8
  vblank : Bool
  spr0hit : Bool
  sprOverflow : Bool
  oamAddr : BitVec 8
  oam : Memory (BitVec 8)
  sec : Memory (BitVec 8)
  secCount : Nat
  secHasZero : Bool
  ciram : Memory (BitVec 8)
  palette : Memory (BitVec 6)
  v : BitVec 15
  t : BitVec 15
  /-- Fine-X scroll, the spec's PPU register x. -/
  fineX : BitVec 3
  w : Bool
  readBuf : BitVec 8
  ntLatch : BitVec 8
  atLatch : BitVec 2
  ptLoLatch : BitVec 8
  ptHiLatch : BitVec 8
  bgLo : BitVec 16
  bgHi : BitVec 16
  atLo : BitVec 16
  atHi : BitVec 16
  spCount : Nat
  slots : List SpriteSlot
  spZero : Bool
  fb : FrameBuffer
  deriving DecidableEq, Repr

/-- The two cartridge variants (R620). -/
inductive MapperKind where
  | nrom
  | mmc1
  deriving DecidableEq, Repr

/-- The nametable mirroring modes (R551, R620). -/
inductive Mirroring where
  | horizontal
  | vertical
  | singleLower
  | singleUpper
  deriving DecidableEq, Repr

/-- The mapper state (R620). The MMC1's registers keep their load values on an NROM cartridge. -/
structure Mapper where
  kind : MapperKind
  /-- PRG ROM size in units of 16 KiB. -/
  prgUnits : Nat
  prg : Memory (BitVec 8)
  /-- CHR size in units of 8 KiB; 1 when CHR is RAM. -/
  chrUnits : Nat
  chrIsRam : Bool
  chr : Memory (BitVec 8)
  /-- PRG-RAM size in units of 8 KiB; only the first is reachable (R625). -/
  prgRamUnits : Nat
  prgRam : Memory (BitVec 8)
  mirroring : Mirroring
  sr : BitVec 5
  count : Nat
  control : BitVec 5
  chr0 : BitVec 5
  chr1 : BitVec 5
  prgBank : BitVec 5
  deriving DecidableEq, Repr

/-- An output to the host, which changes no architectural state (R13, R490). -/
inductive Event where
  /-- The framebuffer handed over at the PPU's wrap (R563). -/
  | frameComplete (fb : FrameBuffer)
  /-- A write to 0x4016 (R96). -/
  | controllerStrobe (v : BitVec 8)
  /-- The diagnostic of an undefined opcode: its byte and its address (R442). -/
  | undefinedOpcode (op : BitVec 8) (a : BitVec 16)
  deriving DecidableEq, Repr

/-- The fatal load errors (R661). -/
inductive LoadError where
  /-- The file cannot be read. -/
  | unreadable
  /-- The file is shorter than its header says, or than a header. -/
  | truncated
  /-- The mapper number is neither 0 nor 1. -/
  | unsupportedMapper
  /-- The header declares no PRG ROM. -/
  | noPrg
  deriving DecidableEq, Repr

/-- Why the machine stops. The hardware has no CPU-level failure (R460). -/
inductive Fault where
  /-- An undefined opcode `op` at address `a` when the parameter UNDEFINED_OPCODE_POLICY is fault (R441), a model's
  option that the default excludes. Raised by the undefined opcodes' shared operation. Safe: the hardware goes on. -/
  | undefinedOpcode (op : BitVec 8) (a : BitVec 16)
  deriving DecidableEq, Repr

/-- Why a call has no meaning. -/
inductive Refusal where
  /-- An instruction that has no meaning yet. Raised by exec's arms alone. Safe. -/
  | notModelled (mnemonic : String)
  /-- run_frame or power() with no cartridge loaded (R490, R670). Raised by step, runFrame and power. Safe: the spec
  says the call is refused. -/
  | noCartridge
  /-- A fatal load error (R661). Raised by load. Safe: the spec says no state is built. -/
  | fatalLoad (e : LoadError)
  deriving DecidableEq, Repr

/-- The state of the machine. The last three fields are the model's own. -/
structure State where
  /-- Accumulator (R32). -/
  a : BitVec 8
  /-- Index register X (R33). -/
  x : BitVec 8
  /-- Index register Y (R34). -/
  y : BitVec 8
  /-- Stack pointer S (R35). -/
  sp : BitVec 8
  /-- Program counter (R36). -/
  pc : BitVec 16
  /-- Status register P (R37). -/
  p : Flags
  /-- Work RAM (R91); a byte not listed holds the parameter RAM_POISON. -/
  ram : Memory (BitVec 8)
  /-- NMI latch (R47). -/
  nmiPending : Bool
  /-- IRQ level latch (R48). -/
  irqLine : Bool
  /-- Ticks left in the frame budget (R46). -/
  remainingCycles : Int
  ppu : Ppu
  mapper : Mapper
  /-- is_loaded() (R490). -/
  cartLoaded : Bool
  /-- The named parameters of R8; no step changes them. -/
  params : Params
  /-- How many draws have been made; it only keeps draws fresh. -/
  draws : Nat
  /-- The events emitted, newest first. -/
  events : List Event
  deriving DecidableEq, Repr

/-- What an instruction's meaning answers. -/
abbrev Result := Host.Outcome State Fault Refusal

/-! ### The named updates of a state's fields -/

def State.setA (s : State) (v : Byte) : State := { s with a := v }
def State.setX (s : State) (v : Byte) : State := { s with x := v }
def State.setY (s : State) (v : Byte) : State := { s with y := v }
def State.setSp (s : State) (v : Byte) : State := { s with sp := v }
def State.setPc (s : State) (v : Addr) : State := { s with pc := v }
def State.setP (s : State) (p : Flags) : State := { s with p := p }
def State.setRam (s : State) (m : Memory Byte) : State := { s with ram := m }
def State.setPpu (s : State) (p : Ppu) : State := { s with ppu := p }
def State.setMapper (s : State) (m : Mapper) : State := { s with mapper := m }
/-- A collaborator's `set_nmi(v)` (R461, R467). -/
def State.setNmi (s : State) (v : Bool) : State := { s with nmiPending := v }
/-- A collaborator's `set_irq(v)` (R461, R464). -/
def State.setIrq (s : State) (v : Bool) : State := { s with irqLine := v }
/-- `event e` (R13). -/
def State.emit (s : State) (e : Event) : State := { s with events := e :: s.events }
/-- Count one draw. -/
def State.countDraw (s : State) : State := { s with draws := s.draws + 1 }
/-- run_frame's first line: add a budget to the cycle counter (R462). -/
def State.addCycles (s : State) (n : Int) : State := { s with remainingCycles := s.remainingCycles + n }

/-! ### Reset -/

/-- The PPU right after power(): every register, latch and shifter 0, the memories at their power-on contents, 21 dots
after (0, 0) (R522, R673). -/
def Ppu.reset : Ppu where
  scanline := 0
  dot := 21
  ctrl := 0#8
  mask := 0#8
  vblank := false
  spr0hit := false
  sprOverflow := false
  oamAddr := 0#8
  oam := []
  sec := []
  secCount := 0
  secHasZero := false
  ciram := []
  palette := []
  v := 0#15
  t := 0#15
  fineX := 0#3
  w := false
  readBuf := 0#8
  ntLatch := 0#8
  atLatch := 0#2
  ptLoLatch := 0#8
  ptHiLatch := 0#8
  bgLo := 0#16
  bgHi := 0#16
  atLo := 0#16
  atHi := 0#16
  spCount := 0
  slots := List.replicate 8 SpriteSlot.zero
  spZero := false
  fb := { epoch := 0, rows := [] }

/-- A blank cartridge: NROM, one PRG unit with nothing listed, CHR RAM, one PRG-RAM unit, horizontal mirroring, and the
MMC1 registers at their load values (R620). DESIGN CHOICE, notes 1. -/
def Mapper.blank : Mapper where
  kind := .nrom
  prgUnits := 1
  prg := []
  chrUnits := 1
  chrIsRam := true
  chr := []
  prgRamUnits := 1
  prgRam := []
  mirroring := .horizontal
  sr := 0#5
  count := 0
  control := 0x0C#5
  chr0 := 0#5
  chr1 := 0#5
  prgBank := 0#5

/-- The machine right after power() (R673), a blank cartridge loaded (notes 1): the pc is what the reset vector holds
there. `Tests.test_power_gives_reset` shows that power() answers it. -/
def State.reset : State where
  a := 0#8
  x := 0#8
  y := 0#8
  sp := 0xFD#8
  pc := 0#16
  p := { c := false, z := false, i := true, d := false, v := false, n := false }
  ram := []
  nmiPending := false
  irqLine := false
  remainingCycles := -7
  ppu := Ppu.reset
  mapper := Mapper.blank
  cartLoaded := true
  params := Params.default
  draws := 1
  events := []

end Sys2Proof.Machine
end

