-- ==== Sys2Proof/Machine/Flags.lean ====
section
/-!
DEFINITION. Machine/Flags.lean: the status byte's image and every flag computation (10_state.md R37 to R45,
43_arithmetic.md, 45_shift_rotate.md, 46_compare.md R333).
-/

namespace Sys2Proof.Machine

/-- `pack(b)`: the pushed image of the status register, with `b` in bit 4 (R44). -/
def Flags.pack (p : Flags) (b : Bool) : Byte :=
  BitVec.ofBool p.n ++ BitVec.ofBool p.v ++ BitVec.ofBool true ++ BitVec.ofBool b ++
    BitVec.ofBool p.d ++ BitVec.ofBool p.i ++ BitVec.ofBool p.z ++ BitVec.ofBool p.c

/-- `unpack(m)`: the flags of a pulled byte, whose bits 4 and 5 are discarded (R45). -/
def unpack (m : Byte) : Flags where
  c := bit m 0
  z := bit m 1
  i := bit m 2
  d := bit m 3
  v := bit m 6
  n := bit m 7

/-- `setNZ(v)` (R11). -/
def Flags.setNZ (p : Flags) (v : Byte) : Flags := { p with n := bit v 7, z := decide (v = 0#8) }

/-- `setNZ(v)` on a state (R11). -/
def State.setNZ (s : State) (v : Byte) : State := s.setP (s.p.setNZ v)

/-- `P.C <- v` (R38). -/
def State.setC (s : State) (v : Bool) : State := s.setP { s.p with c := v }

/-- The result of an addition: the byte, the carry out of bit 7 and the signed overflow. -/
structure Sum where
  value : Byte
  carry : Bool
  overflow : Bool
  deriving DecidableEq, Repr

/-- The nine-bit sum of ADC (R260). -/
def sum9 (a m : Byte) (c : Bool) : BitVec 9 :=
  a.setWidth 9 + m.setWidth 9 + (BitVec.ofBool c).setWidth 9

/-- ADC's sum, carry and overflow (R260). -/
def addWithCarry (a m : Byte) (c : Bool) : Sum :=
  let r : Byte := (sum9 a m c).setWidth 8
  { value := r
    carry := (sum9 a m c).getLsbD 8
    overflow := bit (~~~(a ^^^ m) &&& (a ^^^ r)) 7 }

/-- SBC's difference: ADC of the complemented operand (R261). -/
def subWithCarry (a m : Byte) (c : Bool) : Sum := addWithCarry a (m ^^^ 0xFF#8) c

/-- The flags after an addition: C, V, N and Z (R260). -/
def Flags.ofSum (p : Flags) (s : Sum) : Flags :=
  { p.setNZ s.value with c := s.carry, v := s.overflow }

/-- The compare helper: C, Z and N from `r - m` (R333). -/
def Flags.compare (p : Flags) (r m : Byte) : Flags :=
  { p with c := decide (m.toNat ≤ r.toNat), z := decide (r = m), n := bit (r - m) 7 }

/-- BIT: Z from `a & m`, N and V from bits 7 and 6 of `m` (R293). -/
def Flags.bitTest (p : Flags) (a m : Byte) : Flags :=
  { p with z := decide (a &&& m = 0#8), n := bit m 7, v := bit m 6 }

/-- A shifted byte and the bit shifted out of it. -/
structure Shifted where
  value : Byte
  carry : Bool
  deriving DecidableEq, Repr

/-- ASL (R310). -/
def shiftLeft (m : Byte) : Shifted := { value := m <<< 1, carry := bit m 7 }

/-- LSR (R311). -/
def shiftRight (m : Byte) : Shifted := { value := m >>> 1, carry := bit m 0 }

/-- ROL with carry-in `c` (R312). -/
def rotateLeft (m : Byte) (c : Bool) : Shifted :=
  { value := (m <<< 1) ||| (if c then 0x01#8 else 0#8), carry := bit m 7 }

/-- ROR with carry-in `c` (R313). -/
def rotateRight (m : Byte) (c : Bool) : Shifted :=
  { value := (m >>> 1) ||| (if c then 0x80#8 else 0#8), carry := bit m 0 }

end Sys2Proof.Machine
end

