-- ==== Sys2Proof/Machine/Cells.lean ====
section
/-!
DEFINITION. Machine/Cells.lean: reading and writing a memory, and its canonical form. A memory lists its entries in
rising order of index. It is read and written with a default: `some d` where an unlisted entry holds `d` (then writing
`d` takes the entry out), `none` where an unlisted entry holds no recorded value (a memory whose power-on contents the
spec leaves open, notes 5).
-/

namespace Sys2Proof.Machine

/-- The value listed for `k`. -/
def Memory.find {α : Type} : Memory α → Nat → Option α
  | [], _ => none
  | (j, v) :: m, k => if k = j then some v else if k < j then none else Memory.find m k

/-- List `v` for `k`. -/
def Memory.insert {α : Type} : Memory α → Nat → α → Memory α
  | [], k, v => [(k, v)]
  | (j, u) :: m, k, v =>
    if k < j then (k, v) :: (j, u) :: m
    else if k = j then (k, v) :: m
    else (j, u) :: Memory.insert m k v

/-- List nothing for `k`. -/
def Memory.erase {α : Type} : Memory α → Nat → Memory α
  | [], _ => []
  | (j, u) :: m, k =>
    if k < j then (j, u) :: m
    else if k = j then m
    else (j, u) :: Memory.erase m k

/-- Write `v` at `k`, an unlisted entry holding `d`. -/
def Memory.write {α : Type} [DecidableEq α] (d : Option α) (m : Memory α) (k : Nat) (v : α) : Memory α :=
  if d = some v then Memory.erase m k else Memory.insert m k v

/-- Read `k`, an unlisted entry reading as `d`. -/
def Memory.read {α : Type} (m : Memory α) (k : Nat) (d : α) : α := (Memory.find m k).getD d

/-- Every index of `m` is above `k`, and they rise. -/
def Memory.risesAbove {α : Type} : Option Nat → Memory α → Bool
  | _, [] => true
  | b, (j, _) :: m => (b.all (· < j)) && Memory.risesAbove (some j) m

/-- The canonical form: indexes strictly rise, they are below `size`, and no entry holds the default. -/
def Memory.wf {α : Type} [DecidableEq α] (d : Option α) (size : Nat) (m : Memory α) : Bool :=
  Memory.risesAbove none m && m.all (fun e => decide (e.1 < size) && decide (d ≠ some e.2))

/-- The colour of a framebuffer at line `y`, column `x` (R591): the resolved index's, or the power-on draw's (R522). -/
def FrameBuffer.colour (fb : FrameBuffer) (y x : Nat) : Colour :=
  match Memory.find ((Memory.find fb.rows y).getD []) x with
  | some c => Config.masterPalette c
  | none => Config.framePower fb.epoch x y

/-- Write the colour index resolved at line `y`, column `x`. -/
def FrameBuffer.put (fb : FrameBuffer) (y x : Nat) (c : ColourIndex) : FrameBuffer :=
  { fb with rows := Memory.write none fb.rows y (Memory.write none ((Memory.find fb.rows y).getD []) x c) }

/-- The canonical form of a framebuffer: 240 lines of 256 columns, no listed line empty (R592). -/
def FrameBuffer.wf (fb : FrameBuffer) : Bool :=
  Memory.wf none 240 fb.rows && fb.rows.all (fun r => Memory.wf none 256 r.2 && !r.2.isEmpty)

end Sys2Proof.Machine
end

