-- ==== Sys2Proof/Machine/Cartridge.lean ====
section
/-!
DEFINITION. Machine/Cartridge.lean: the two mappers and the iNES loader (66_mapper.md).
-/

namespace Sys2Proof.Machine

/-! ### PRG space -/

/-- The PRG mode field of the MMC1's control register, bits 3:2 (R634). -/
def Mapper.prgMode (m : Mapper) : Nat := (m.control.toNat / 4) % 4

/-- The CHR mode bit of the MMC1's control register, bit 4 (R634). -/
def Mapper.chrMode (m : Mapper) : Bool := m.control.getLsbD 4

/-- The 16 KiB bank that an address of 0x8000-0xFFFF reads on an MMC1 (R635). -/
def Mapper.prgBankAt (m : Mapper) (a : Addr) : Nat :=
  let b := m.prgBank.toNat % 16
  let upper : Bool := decide (0xC000 ≤ a.toNat)
  match m.prgMode, upper with
  | 2, false => 0
  | 2, true => b % m.prgUnits
  | 3, false => b % m.prgUnits
  | 3, true => m.prgUnits - 1
  | _, false => (b - b % 2) % m.prgUnits
  | _, true => (b - b % 2 + 1) % m.prgUnits

/-- Where in PRG ROM an address of 0x8000-0xFFFF reads (R630, R635). -/
def Mapper.prgOffset (m : Mapper) (a : Addr) : Nat :=
  match m.kind with
  | .nrom => (a.toNat - 0x8000) % (16384 * m.prgUnits)
  | .mmc1 => m.prgBankAt a * 16384 + a.toNat % 16384

/-- A PRG ROM read at 0x8000-0xFFFF (R625); a byte the image does not list is 0x00 (notes 1). -/
def Mapper.prgRead (m : Mapper) (a : Addr) : Byte := Memory.read m.prg (m.prgOffset a) 0#8

/-- A PRG-RAM read at 0x6000 + `k` (R625). -/
def Mapper.prgRamRead (m : Mapper) (k : Nat) : Byte := Memory.read m.prgRam k (Config.prgRamPower k)

/-- A PRG-RAM write at 0x6000 + `k` (R626). -/
def Mapper.prgRamWrite (m : Mapper) (k : Nat) (v : Byte) : Mapper :=
  { m with prgRam := Memory.write none m.prgRam k v }

/-! ### The MMC1's registers -/

/-- The mirroring the control register's bits 1:0 select: MirrorOf (R634). -/
def mirrorOf (r : BitVec 5) : Mirroring :=
  match r.toNat % 4 with
  | 0 => .singleLower
  | 1 => .singleUpper
  | 2 => .vertical
  | _ => .horizontal

/-- The register that the fifth serial write's address selects takes the shifted value (R631). -/
def Mapper.loadRegister (m : Mapper) (a : Addr) (r : BitVec 5) : Mapper :=
  match (a.toNat / 0x2000) % 4 with
  | 0 => { m with control := r, mirroring := mirrorOf r }
  | 1 => { m with chr0 := r }
  | 2 => { m with chr1 := r }
  | _ => { m with prgBank := r }

/-- The MMC1's serial write of `d` at `a` in 0x8000-0xFFFF (R631). -/
def Mapper.serialWrite (m : Mapper) (a : Addr) (d : Byte) : Mapper :=
  if bit d 7 then
    { m with sr := 0#5, count := 0, control := m.control ||| 0x0C#5 }
  else
    let sr : BitVec 5 := (m.sr >>> 1) ||| (if bit d 0 then 0x10#5 else 0#5)
    if m.count + 1 = 5 then { m.loadRegister a sr with sr := 0#5, count := 0 }
    else { m with sr := sr, count := m.count + 1 }

/-- A write at 0x8000-0xFFFF: ignored by NROM, a serial write on the MMC1 (R626). -/
def Mapper.prgWrite (m : Mapper) (a : Addr) (d : Byte) : Mapper :=
  match m.kind with
  | .nrom => m
  | .mmc1 => m.serialWrite a d

/-! ### CHR space -/

/-- Where in CHR a pattern-table address reads: ChrOffset (R630, R636). -/
def Mapper.chrOffset (m : Mapper) (a : VAddr) : Nat :=
  match m.kind with
  | .nrom => a.toNat
  | .mmc1 =>
    let n4 := 2 * m.chrUnits
    let upper : Bool := decide (0x1000 ≤ a.toNat)
    let bank :=
      match m.chrMode, upper with
      | false, false => (m.chr0.toNat - m.chr0.toNat % 2) % n4
      | false, true => (m.chr0.toNat - m.chr0.toNat % 2 + 1) % n4
      | true, false => m.chr0.toNat % n4
      | true, true => m.chr1.toNat % n4
    bank * 4096 + a.toNat % 4096

/-- What a CHR byte not listed holds: the power-on draw in CHR RAM, 0x00 in CHR ROM (notes 1, 5). -/
def Mapper.chrUnlisted (m : Mapper) (k : Nat) : Byte := if m.chrIsRam then Config.chrRamPower k else 0#8

/-- The default CHR is written with: none recorded in RAM, 0x00 in ROM. -/
def Mapper.chrDefault (m : Mapper) : Option Byte := if m.chrIsRam then none else some 0#8

/-- MapperChrRead (R627). -/
def Mapper.chrRead (m : Mapper) (a : VAddr) : Byte :=
  Memory.read m.chr (m.chrOffset a) (m.chrUnlisted (m.chrOffset a))

/-- MapperChrWrite: stored in CHR RAM, ignored in CHR ROM (R627). -/
def Mapper.chrWrite (m : Mapper) (a : VAddr) (d : Byte) : Mapper :=
  if m.chrIsRam then { m with chr := Memory.write none m.chr (m.chrOffset a) d } else m

/-! ### The ROM image -/

/-- The memory of a list of bytes from index `k` on, a byte 0x00 not listed. -/
def Memory.ofBytes : Nat → List Byte → Memory Byte
  | _, [] => []
  | k, b :: bs => if b = 0#8 then Memory.ofBytes (k + 1) bs else (k, b) :: Memory.ofBytes (k + 1) bs

/-- The mapper number of an image's header (R660). -/
def mapperId (image : List Byte) : Byte :=
  (image.getD 7 0#8 &&& 0xF0#8) ||| (image.getD 6 0#8 >>> 4)

/-- The variant a mapper number selects (R660). -/
def mapperKindOf (n : Byte) : Option MapperKind :=
  if n = 0#8 then some .nrom else if n = 1#8 then some .mmc1 else none

/-- The mapper state that an image of this variant gives (R620, R660). -/
def buildMapper (kind : MapperKind) (image : List Byte) : Mapper :=
  let prgUnits := (image.getD 4 0#8).toNat
  let chrDeclared := (image.getD 5 0#8).toNat
  let prgRamDeclared := (image.getD 8 0#8).toNat
  { kind := kind
    prgUnits := prgUnits
    prg := Memory.ofBytes 0 ((image.drop 16).take (16384 * prgUnits))
    chrUnits := if chrDeclared = 0 then 1 else chrDeclared
    chrIsRam := decide (chrDeclared = 0)
    chr := Memory.ofBytes 0 ((image.drop (16 + 16384 * prgUnits)).take (8192 * chrDeclared))
    prgRamUnits := if prgRamDeclared = 0 then 1 else prgRamDeclared
    prgRam := []
    mirroring := if bit (image.getD 6 0#8) 0 then .vertical else .horizontal
    sr := 0#5
    count := 0
    control := 0x0C#5
    chr0 := 0#5
    chr1 := 0#5
    prgBank := 0#5 }

/-- The loader (R660, R661): the file's bytes, or none when it cannot be read. -/
def loadImage (file : Option (List Byte)) : Except LoadError Mapper :=
  match file with
  | none => .error .unreadable
  | some image =>
    let size := 16 + 16384 * (image.getD 4 0#8).toNat + 8192 * (image.getD 5 0#8).toNat
    if image.length < size then .error .truncated
    else
      match mapperKindOf (mapperId image) with
      | none => .error .unsupportedMapper
      | some kind =>
        if image.getD 4 0#8 = 0#8 then .error .noPrg else .ok (buildMapper kind image)

end Sys2Proof.Machine
end

