-- ==== Sys2Proof/Machine/Ppu.lean ====
section
/-!
DEFINITION. Machine/Ppu.lean: the PPU's address space, dot machine, pipelines and pixel output (65_ppu.md). Every
function here is of the PPU state and the mapper it reads through; the registers the CPU sees are in Machine/Ops.lean.
-/

namespace Sys2Proof.Machine

/-! ### The PPU address space (R550 to R552) -/

/-- NtIndex (R551) of the nametable part `n` of an address. -/
def ntIndex (mode : Mirroring) (n : Nat) : Nat :=
  match mode with
  | .vertical => n % 0x800
  | .horizontal => (n / 0x800) % 2 * 0x400 + n % 0x400
  | .singleLower => n % 0x400
  | .singleUpper => 0x400 + n % 0x400

/-- PalIndex (R552). -/
def palIndex (a : VAddr) : Nat :=
  let p := a.toNat % 0x20
  if p = 0x10 ∨ p = 0x14 ∨ p = 0x18 ∨ p = 0x1C then p - 0x10 else p

/-- The palette entry an address selects (R552). -/
def Ppu.paletteAt (p : Ppu) (a : VAddr) : ColourIndex :=
  Memory.read p.palette (palIndex a) (Config.palettePower (palIndex a))

/-- The nametable byte an address selects, under the mapper's mirroring (R551, R628). -/
def Ppu.nametableAt (m : Mapper) (p : Ppu) (a : VAddr) : Byte :=
  let k := ntIndex m.mirroring (a.toNat % 0x1000)
  Memory.read p.ciram k (Config.ciramPower k)

/-- PpuRead (R550). -/
def ppuRead (m : Mapper) (p : Ppu) (a : VAddr) : Byte :=
  if a.toNat < 0x2000 then m.chrRead a
  else if a.toNat < 0x3F00 then p.nametableAt m a
  else (p.paletteAt a).setWidth 8

/-- What PpuWrite (R550) does to the PPU's own memories. -/
def Ppu.memWrite (m : Mapper) (p : Ppu) (a : VAddr) (d : Byte) : Ppu :=
  if a.toNat < 0x2000 then p
  else if a.toNat < 0x3F00 then
    { p with ciram := Memory.write none p.ciram (ntIndex m.mirroring (a.toNat % 0x1000)) d }
  else { p with palette := Memory.write none p.palette (palIndex a) (d.setWidth 6) }

/-- What PpuWrite (R550) does to the mapper: the pattern tables are its CHR. -/
def Mapper.ppuWrite (m : Mapper) (a : VAddr) (d : Byte) : Mapper :=
  if a.toNat < 0x2000 then m.chrWrite a d else m

/-- An OAM byte (R520, R522). -/
def Ppu.oamAt (p : Ppu) (k : Nat) : Byte := Memory.read p.oam k (Config.oamPower k)

/-- A secondary OAM byte (R520, R522). -/
def Ppu.secAt (p : Ppu) (k : Nat) : Byte := Memory.read p.sec k (Config.secPower k)

/-! ### Scroll arithmetic (R554, R568, R569) -/

/-- Coarse X, bits 4:0 of v (R554). -/
def coarseX (v : Scroll) : Nat := v.toNat % 32

/-- Coarse Y, bits 9:5 of v (R554). -/
def coarseY (v : Scroll) : Nat := (v.toNat / 32) % 32

/-- Fine Y, bits 14:12 of v (R554). -/
def fineY (v : Scroll) : Nat := v.toNat / 4096

/-- IncCoarseX (R568). -/
def incCoarseX (v : Scroll) : Scroll :=
  if coarseX v = 31 then (v &&& 0x7FE0#15) ^^^ 0x0400#15 else v + 1#15

/-- IncY (R568). -/
def incY (v : Scroll) : Scroll :=
  if fineY v < 7 then v + 0x1000#15
  else
    let v := v &&& 0x0FFF#15
    let y := coarseY v
    let v' := if y = 29 then v ^^^ 0x0800#15 else v
    let y' := if y = 29 ∨ y = 31 then 0 else y + 1
    (v' &&& 0x7C1F#15) ||| (BitVec.ofNat 15 y' <<< 5)

/-- The horizontal copy of t into v (R569). -/
def copyHorizontal (v t : Scroll) : Scroll := (v &&& 0x7BE0#15) ||| (t &&& 0x041F#15)

/-- The vertical copy of t into v (R569). -/
def copyVertical (v t : Scroll) : Scroll := (v &&& 0x041F#15) ||| (t &&& 0x7BE0#15)

/-! ### Background fetches (R564) -/

/-- The nametable fetch address (R564). -/
def ntAddress (v : Scroll) : VAddr := 0x2000#14 ||| (v.setWidth 14 &&& 0x0FFF#14)

/-- The attribute fetch address (R564). -/
def atAddress (v : Scroll) : VAddr :=
  let v14 : VAddr := v.setWidth 14
  0x23C0#14 ||| (v14 &&& 0x0C00#14) ||| ((v14 >>> 4) &&& 0x38#14) ||| ((v14 >>> 2) &&& 0x07#14)

/-- How far the attribute byte is shifted to bring the tile's quadrant down (R564). -/
def atShift (v : Scroll) : Nat := (if v.getLsbD 6 then 4 else 0) + (if v.getLsbD 1 then 2 else 0)

/-- The address of the fetched tile's pattern byte in plane 0 or 1 (R564). -/
def Ppu.patternAddress (p : Ppu) (plane : Nat) : VAddr :=
  BitVec.ofNat 14 ((if bit p.ctrl 4 then 0x1000 else 0) + p.ntLatch.toNat * 16 + fineY p.v + 8 * plane)

/-! ### Positions and enables (R561, R562) -/

/-- Rendering is enabled (R562). -/
def Ppu.rendering (p : Ppu) : Bool := bit p.mask 3 || bit p.mask 4

/-- A visible line (R561). -/
def Ppu.visibleLine (p : Ppu) : Bool := decide (p.scanline < 240)

/-- A rendering line: visible or pre-render (R561). -/
def Ppu.renderingLine (p : Ppu) : Bool := decide (p.scanline < 240 ∨ p.scanline = 261)

/-- The dots on which the shifters shift (R565, 1). -/
def shiftDot (d : Nat) : Bool := decide (2 ≤ d ∧ d ≤ 257 ∨ 322 ≤ d ∧ d ≤ 337)

/-- The dots on which the shifters are reloaded (R565, 2). -/
def reloadDot (d : Nat) : Bool := decide (9 ≤ d ∧ d ≤ 257 ∧ d % 8 = 1 ∨ d = 329 ∨ d = 337)

/-- The dots on which a fetch can fall (R565, 3). -/
def fetchDot (d : Nat) : Bool := decide (1 ≤ d ∧ d ≤ 256 ∨ 321 ≤ d ∧ d ≤ 336)

/-- The dots on which coarse X is incremented (R565, 4). -/
def coarseXDot (d : Nat) : Bool := decide (8 ≤ d ∧ d ≤ 256 ∧ d % 8 = 0 ∨ d = 328 ∨ d = 336)

/-! ### The background pipeline (R565, R570, R571) -/

/-- Shift (R571). -/
def Ppu.shift (p : Ppu) : Ppu :=
  { p with bgLo := p.bgLo <<< 1, bgHi := p.bgHi <<< 1, atLo := p.atLo <<< 1, atHi := p.atHi <<< 1 }

/-- A shifter with its low byte replaced (R570). -/
def withLowByte (r : BitVec 16) (b : Byte) : BitVec 16 := (r &&& 0xFF00#16) ||| b.setWidth 16

/-- Reload (R570). -/
def Ppu.reload (p : Ppu) : Ppu :=
  { p with
    bgLo := withLowByte p.bgLo p.ptLoLatch
    bgHi := withLowByte p.bgHi p.ptHiLatch
    atLo := withLowByte p.atLo (if p.atLatch.getLsbD 0 then 0xFF#8 else 0x00#8)
    atHi := withLowByte p.atHi (if p.atLatch.getLsbD 1 then 0xFF#8 else 0x00#8) }

/-- The fetch of a dot of this residue modulo 8 (R564, R565). -/
def Ppu.fetch (m : Mapper) (p : Ppu) (r : Nat) : Ppu :=
  match r with
  | 1 => { p with ntLatch := ppuRead m p (ntAddress p.v) }
  | 3 => { p with atLatch := (ppuRead m p (atAddress p.v) >>> atShift p.v).setWidth 2 }
  | 5 => { p with ptLoLatch := ppuRead m p (p.patternAddress 0) }
  | 7 => { p with ptHiLatch := ppuRead m p (p.patternAddress 1) }
  | _ => p

/-- The background work of a dot of a rendering line, in the order of R565, 1 to 7. -/
def Ppu.background (m : Mapper) (p : Ppu) : Ppu :=
  let p := if shiftDot p.dot then p.shift else p
  let p := if reloadDot p.dot then p.reload else p
  let p := if fetchDot p.dot then p.fetch m (p.dot % 8) else p
  let p := if coarseXDot p.dot then { p with v := incCoarseX p.v } else p
  let p := if p.dot = 256 then { p with v := incY p.v } else p
  let p := if p.dot = 257 then { p with v := copyHorizontal p.v p.t } else p
  if p.scanline = 261 ∧ 280 ≤ p.dot ∧ p.dot ≤ 304 then { p with v := copyVertical p.v p.t } else p

/-! ### The sprite pipeline (R580 to R584) -/

/-- Sprite height (R531, bit 5). -/
def Ppu.spriteHeight (p : Ppu) : Nat := if bit p.ctrl 5 then 16 else 8

/-- Whether a sprite of height `h` whose Y byte is `y` has a row on line `s` (R582: 0 <= s - y < h). -/
def spriteInRange (h s : Nat) (y : Byte) : Bool := decide (y.toNat ≤ s ∧ s - y.toNat < h)

/-- Secondary OAM clear (R581). -/
def Ppu.clearSecondary (p : Ppu) : Ppu :=
  { p with sec := (List.range 32).map (fun k => (k, 0xFF#8)), secCount := 0, secHasZero := false }

/-- Copy sprite `n` into the next secondary slot (R582). -/
def Ppu.copySprite (p : Ppu) (n : Nat) : Ppu :=
  let put := fun (sec : Memory Byte) (j : Nat) =>
    Memory.write none sec (4 * p.secCount + j) (p.oamAt (4 * n + j))
  { p with
    sec := put (put (put (put p.sec 0) 1) 2) 3
    secHasZero := p.secHasZero || decide (n = 0)
    secCount := p.secCount + 1 }

/-- The evaluation of the sprites numbered in the list, in its order (R582, R583). -/
def Ppu.evaluateFrom (p : Ppu) : List Nat → Ppu
  | [] => p
  | n :: ns =>
    if spriteInRange p.spriteHeight p.scanline (p.oamAt (4 * n)) then
      if p.secCount < 8 then (p.copySprite n).evaluateFrom ns else { p with sprOverflow := true }
    else p.evaluateFrom ns

/-- Sprite evaluation: sprites 0 to 63 (R582). -/
def Ppu.evaluateSprites (p : Ppu) : Ppu := p.evaluateFrom (List.range 64)

/-- The address of row `r` of a sprite's tile in plane 0 (R584). -/
def Ppu.spriteAddress (p : Ppu) (tile : Byte) (r : Nat) : Nat :=
  if bit p.ctrl 5 then
    tile.toNat % 2 * 0x1000 + (tile.toNat - tile.toNat % 2 + r / 8) * 16 + r % 8
  else (if bit p.ctrl 3 then 0x1000 else 0) + tile.toNat * 16 + r

/-- A sprite slot loaded from secondary OAM slot `i` for the next line (R584). Where the slot's row is not in
0..h-1, the spec gives no address and the pattern bytes are free values (notes 9). -/
def Ppu.loadSlot (m : Mapper) (p : Ppu) (i : Nat) : SpriteSlot :=
  let y := p.secAt (4 * i)
  let tile := p.secAt (4 * i + 1)
  let attr := p.secAt (4 * i + 2)
  let x := p.secAt (4 * i + 3)
  let row := p.scanline - y.toNat
  let r := if bit attr 7 then p.spriteHeight - 1 - row else row
  let pattern := fun (plane : Nat) =>
    if spriteInRange p.spriteHeight p.scanline y then
      ppuRead m p (BitVec.ofNat 14 (p.spriteAddress tile r + 8 * plane))
    else
      Config.strayPattern plane p.scanline p.ctrl y tile attr x m.chr (m.chrOffset 0x0000#14) (m.chrOffset 0x1000#14)
  let flip := fun (b : Byte) => if bit attr 6 then reverse8 b else b
  { x := x, attr := attr, lo := flip (pattern 0), hi := flip (pattern 1) }

/-- The slots after the sprite fetch: those below secCount loaded, the others kept (R584). -/
def Ppu.loadSlots (m : Mapper) (p : Ppu) : Nat → List SpriteSlot → List SpriteSlot
  | _, [] => []
  | i, s :: ss => (if i < p.secCount then p.loadSlot m i else s) :: p.loadSlots m (i + 1) ss

/-- Sprite fetch (R584). -/
def Ppu.fetchSprites (m : Mapper) (p : Ppu) : Ppu :=
  { p with slots := p.loadSlots m 0 p.slots, spCount := p.secCount, spZero := p.secHasZero }

/-- The sprite work of a dot of a visible line (R581, R582, R584). -/
def Ppu.sprites (m : Mapper) (p : Ppu) : Ppu :=
  if p.dot = 64 then p.clearSecondary
  else if p.dot = 256 then p.evaluateSprites
  else if p.dot = 320 then p.fetchSprites m
  else p

/-! ### Pixels (R572, R586, R587, R590, R591) -/

/-- A two-bit number from its high and low bit. -/
def twoBits (hi lo : Bool) : Nat := (if hi then 2 else 0) + (if lo then 1 else 0)

/-- The background pixel at column `x` and its palette group (R572). -/
def Ppu.backgroundPixel (p : Ppu) (x : Nat) : Nat × Nat :=
  let b := 15 - p.fineX.toNat
  let shown : Bool := bit p.mask 3 && (decide (8 ≤ x) || bit p.mask 1)
  (if shown then twoBits (p.bgHi.getLsbD b) (p.bgLo.getLsbD b) else 0, twoBits (p.atHi.getLsbD b) (p.atLo.getLsbD b))

/-- Sprites are shown at column `x` (R586). -/
def Ppu.spritesShown (p : Ppu) (x : Nat) : Bool := bit p.mask 4 && (decide (8 ≤ x) || bit p.mask 2)

/-- A slot's own pixel at column `x`, 0 when it does not cover it (R586). -/
def SpriteSlot.pixel (s : SpriteSlot) (x : Nat) : Nat :=
  if s.x.toNat ≤ x ∧ x - s.x.toNat ≤ 7 then
    twoBits (bit s.hi (7 - (x - s.x.toNat))) (bit s.lo (7 - (x - s.x.toNat)))
  else 0

/-- The sprite pixel at column `x`, with its palette group and priority bit: the first opaque one of the slots, or a
transparent one (R586). -/
def spritePixelOf (x : Nat) : List SpriteSlot → Nat × Nat × Bool
  | [] => (0, 0, false)
  | s :: ss => if s.pixel x ≠ 0 then (s.pixel x, s.attr.toNat % 4, bit s.attr 5) else spritePixelOf x ss

/-- The sprite pixel the current line shows at column `x` (R586). -/
def Ppu.spritePixel (p : Ppu) (x : Nat) : Nat × Nat × Bool :=
  if p.spritesShown x then spritePixelOf x (p.slots.take p.spCount) else (0, 0, false)

/-- Whether slot 0, when it is sprite 0, has an opaque pixel at column `x` (R587). -/
def Ppu.spriteZeroOpaque (p : Ppu) (x : Nat) : Bool :=
  match p.slots.take p.spCount with
  | [] => false
  | s :: _ => p.spZero && p.spritesShown x && decide (s.pixel x ≠ 0)

/-- The palette index of the pixel at column `x` (R590). -/
def Ppu.pixelIndex (p : Ppu) (x : Nat) : Nat :=
  let (bg, bgPal) := p.backgroundPixel x
  let (sp, spPal, behind) := p.spritePixel x
  if bg = 0 ∧ sp = 0 then 0
  else if bg = 0 then 0x10 + 4 * spPal + sp
  else if sp = 0 then 4 * bgPal + bg
  else if behind then 4 * bgPal + bg
  else 0x10 + 4 * spPal + sp

/-- The colour index after the greyscale mask (R591, R533 bit 0). -/
def Ppu.greyscale (p : Ppu) (c : ColourIndex) : ColourIndex := if bit p.mask 0 then c &&& 0x30#6 else c

/-- Pixel output at column `x`: the framebuffer and the sprite-0 hit (R587, R590). -/
def Ppu.output (p : Ppu) (x : Nat) : Ppu :=
  { p with
    spr0hit := p.spr0hit || (p.spriteZeroOpaque x && decide ((p.backgroundPixel x).1 ≠ 0) && decide (x ≠ 255))
    fb := p.fb.put p.scanline x (p.greyscale (p.paletteAt (BitVec.ofNat 14 (0x3F00 + p.pixelIndex x)))) }

/-! ### The dot machine (R560) -/

/-- The vblank start of R566 falls at this position. -/
def Ppu.atVblankStart (p : Ppu) : Bool := decide (p.scanline = 241 ∧ p.dot = 1)

/-- The dot of this position raises NMI (R566). -/
def Ppu.raisesNmi (p : Ppu) : Bool := p.atVblankStart && bit p.ctrl 7

/-- The dot of this position is the last of a frame (R560, R563). -/
def Ppu.completesFrame (p : Ppu) : Bool := decide (p.dot = 340 ∧ p.scanline = 261)

/-- The status work of a dot (R566, R567). -/
def Ppu.status (p : Ppu) : Ppu :=
  if p.atVblankStart then { p with vblank := true }
  else if p.scanline = 261 ∧ p.dot = 1 then
    { p with vblank := false, spr0hit := false, sprOverflow := false, spCount := 0, spZero := false }
  else p

/-- The rendering work of a dot: background, then sprites, then the pixel (R561 to R590). -/
def Ppu.render (m : Mapper) (p : Ppu) : Ppu :=
  let p := if p.renderingLine then p.background m else p
  let p := if p.visibleLine then p.sprites m else p
  if p.visibleLine && decide (1 ≤ p.dot ∧ p.dot ≤ 256) then p.output (p.dot - 1) else p

/-- DoDot (R560): the work of the current position. -/
def Ppu.doDot (m : Mapper) (p : Ppu) : Ppu :=
  let p := p.status
  if p.rendering then p.render m else p

/-- The advance to the next position (R560). -/
def Ppu.advance (p : Ppu) : Ppu :=
  if p.dot + 1 = 341 then
    { p with dot := 0, scanline := if p.scanline + 1 = 262 then 0 else p.scanline + 1 }
  else { p with dot := p.dot + 1 }

/-- PpuStep (R560), but for its outputs `raisesNmi` and `completesFrame`. -/
def Ppu.step (m : Mapper) (p : Ppu) : Ppu := (p.doDot m).advance

/-- PpuPowerOn (R522); `k` is the draw number of the framebuffer's power-on contents. -/
def Ppu.powerOn (k : Nat) : Ppu := { Ppu.reset with dot := 0, fb := { epoch := k, rows := [] } }

end Sys2Proof.Machine
end

