-- ==== Sys2Proof/Machine/Ops.lean ====
section
/-!
DEFINITION. Machine/Ops.lean: ticks, the bus decoder with the PPU's registers behind it, the stack, and entering and
leaving an interrupt (00_scope.md R12, 20_memory.md, 65_ppu.md R530 to R545, 60_exceptions.md R469).
-/

namespace Sys2Proof.Machine

/-! ### Time (R12, R560) -/

/-- One PPU dot: PpuStep with its outputs, the NMI and the finished frame (R560, R563, R566). -/
def State.dotStep (s : State) : State :=
  { s with
    ppu := s.ppu.step s.mapper
    nmiPending := s.nmiPending || s.ppu.raisesNmi
    events := if s.ppu.completesFrame then .frameComplete (s.ppu.step s.mapper).fb :: s.events else s.events }

/-- `Tick()`, and so `Internal()`: three dots, and one cycle less (R12). -/
def tick (s : State) : State :=
  { s.dotStep.dotStep.dotStep with remainingCycles := s.remainingCycles - 1 }

/-! ### Draws (R13, R99) -/

/-- A fresh draw of a byte at a site; `draw(n)` takes its low `n` bits. -/
def drawByte (site : Nat) (s : State) : Byte × State := (Config.drawByte s.draws site, s.countDraw)

/-- The controller oracle's answer on a port (R96). -/
def controllerRead (port : Nat) (s : State) : Byte × State := (Config.controllerByte s.draws port, s.countDraw)

/-! ### The PPU's registers (R530 to R545) -/

/-- The increment of v by a PPUDATA access (R542). -/
def Ppu.increment (p : Ppu) : Scroll := if bit p.ctrl 2 then 32#15 else 1#15

/-- The PPUDATA address (R542, R554). -/
def Ppu.dataAddress (p : Ppu) : VAddr := p.v.setWidth 14

/-- PPUCTRL write (R534). -/
def Ppu.writeCtrl (p : Ppu) (d : Byte) : Ppu :=
  { p with ctrl := d, t := (p.t &&& 0x73FF#15) ||| ((d &&& 0x03#8).setWidth 15 <<< 10) }

/-- OAMDATA write (R537). -/
def Ppu.writeOam (p : Ppu) (d : Byte) : Ppu :=
  { p with oam := Memory.write none p.oam p.oamAddr.toNat d, oamAddr := p.oamAddr + 1#8 }

/-- PPUSCROLL write (R539). -/
def Ppu.writeScroll (p : Ppu) (d : Byte) : Ppu :=
  if p.w then
    { p with
      t := (p.t &&& 0x0C1F#15) ||| ((d &&& 0x07#8).setWidth 15 <<< 12) ||| ((d >>> 3).setWidth 15 <<< 5)
      w := false }
  else
    { p with t := (p.t &&& 0x7FE0#15) ||| (d >>> 3).setWidth 15, fineX := d.setWidth 3, w := true }

/-- PPUADDR write (R541). -/
def Ppu.writeAddr (p : Ppu) (d : Byte) : Ppu :=
  if p.w then
    let t := (p.t &&& 0x7F00#15) ||| d.setWidth 15
    { p with t := t, v := t, w := false }
  else { p with t := (p.t &&& 0x00FF#15) ||| ((d &&& 0x3F#8).setWidth 15 <<< 8), w := true }

/-- PPUDATA write, the PPU's part (R542). -/
def Ppu.writeData (m : Mapper) (p : Ppu) (d : Byte) : Ppu :=
  { p.memWrite m p.dataAddress d with v := p.v + p.increment }

/-- PpuRegWrite (R530). -/
def ppuRegWrite (i : Nat) (d : Byte) (s : State) : State :=
  match i with
  | 0 => s.setPpu (s.ppu.writeCtrl d)
  | 1 => s.setPpu { s.ppu with mask := d }
  | 3 => s.setPpu { s.ppu with oamAddr := d }
  | 4 => s.setPpu (s.ppu.writeOam d)
  | 5 => s.setPpu (s.ppu.writeScroll d)
  | 6 => s.setPpu (s.ppu.writeAddr d)
  | 7 => (s.setPpu (s.ppu.writeData s.mapper d)).setMapper (s.mapper.ppuWrite s.ppu.dataAddress d)
  | _ => s

/-- PPUSTATUS read: the three stored bits over five drawn ones (R532). -/
def statusRead (s : State) : Byte × State :=
  let low : BitVec 5 := (Config.drawByte s.draws 2).setWidth 5
  (BitVec.ofBool s.ppu.vblank ++ BitVec.ofBool s.ppu.spr0hit ++ BitVec.ofBool s.ppu.sprOverflow ++ low,
    (s.setPpu { s.ppu with vblank := false, w := false }).countDraw)

/-- PPUDATA read (R543). A palette read draws its two upper bits. -/
def dataRead (s : State) : Byte × State :=
  let a := s.ppu.dataAddress
  if a.toNat < 0x3F00 then
    (s.ppu.readBuf,
      s.setPpu { s.ppu with readBuf := ppuRead s.mapper s.ppu a, v := s.ppu.v + s.ppu.increment })
  else
    let high : BitVec 2 := (Config.drawByte s.draws 7).setWidth 2
    (high ++ s.ppu.paletteAt a,
      (s.setPpu { s.ppu with
        readBuf := ppuRead s.mapper s.ppu (a &&& 0x2FFF#14), v := s.ppu.v + s.ppu.increment }).countDraw)

/-- PpuRegRead (R530). -/
def ppuRegRead (i : Nat) (s : State) : Byte × State :=
  match i with
  | 2 => statusRead s
  | 4 => (s.ppu.oamAt s.ppu.oamAddr.toNat, s)
  | 7 => dataRead s
  | _ => drawByte i s

/-! ### The bus decoder (R90) -/

/-- What the bus decoder forwards an access to (R90, R625). -/
inductive Target where
  /-- Work RAM, at this index (R91). -/
  | ram (k : Nat)
  /-- A PPU register (R92). -/
  | ppu (i : Nat)
  /-- The APU/IO stub (R94). -/
  | apu
  /-- The sprite DMA port 0x4014 (R95). -/
  | dma
  /-- A controller port (R96). -/
  | controller (port : Nat)
  /-- An address nothing drives: 0x4018-0x401F, and the cartridge's 0x4020-0x5FFF (R99, R625). -/
  | undriven
  /-- Cartridge PRG-RAM, at this index (R625). -/
  | prgRam (k : Nat)
  /-- Cartridge PRG ROM and the MMC1's serial port, 0x8000-0xFFFF (R625, R626). -/
  | prgRom
  deriving DecidableEq, Repr

/-- The decoder's choice of target (R90). -/
def targetOf (a : Addr) : Target :=
  let n := a.toNat
  if n < 0x2000 then .ram (n % 0x800)
  else if n < 0x4000 then .ppu (n % 8)
  else if n = 0x4014 then .dma
  else if n < 0x4016 then .apu
  else if n < 0x4018 then .controller (n - 0x4016)
  else if n < 0x6000 then .undriven
  else if n < 0x8000 then .prgRam (n - 0x6000)
  else .prgRom

/-- A work-RAM byte (R91, R670). -/
def State.ramAt (s : State) (k : Nat) : Byte := Memory.read s.ram k s.params.ramPoison

/-- A work-RAM write (R91). -/
def State.ramWrite (s : State) (k : Nat) (v : Byte) : State :=
  s.setRam (Memory.write (some s.params.ramPoison) s.ram k v)

/-- `BusRead(addr)` (R90). -/
def busRead (a : Addr) (s : State) : Byte × State :=
  match targetOf a with
  | .ram k => (s.ramAt k, s)
  | .ppu i => ppuRegRead i s
  | .apu => (0x00#8, s)
  | .dma => (0x00#8, s)
  | .controller port => controllerRead port s
  | .undriven => drawByte a.toNat s
  | .prgRam k => (s.mapper.prgRamRead k, s)
  | .prgRom => (s.mapper.prgRead a, s)

/-- `MemRead(addr, 1)` (R12): a tick, then the read. -/
def memRead (a : Addr) (s : State) : Byte × State := busRead a (tick s)

/-- The last `n` of the 256 byte copies of a sprite DMA from page `page` (R95). -/
def dmaCopy (page : Byte) : Nat → State → State
  | 0, s => s
  | n + 1, s =>
    let (b, s) := memRead (word page (BitVec.ofNat 8 (255 - n))) s
    dmaCopy page n (ppuRegWrite 4 b (tick s))

/-- Sprite DMA (R95): one internal tick, then 256 reads of page `page`, each followed by a write of OAMDATA. -/
def spriteDma (page : Byte) (s : State) : State := dmaCopy page 256 (tick s)

/-- `BusWrite(addr, v)` (R90). -/
def busWrite (a : Addr) (v : Byte) (s : State) : State :=
  match targetOf a with
  | .ram k => s.ramWrite k v
  | .ppu i => ppuRegWrite i v s
  | .apu => s
  | .dma => if s.params.oamDmaEnabled then spriteDma v s else s
  | .controller port => if port = 0 then s.emit (.controllerStrobe v) else s
  | .undriven => s
  | .prgRam k => s.setMapper (s.mapper.prgRamWrite k v)
  | .prgRom => s.setMapper (s.mapper.prgWrite a v)

/-- `MemWrite(addr, 1, v)` (R12): a tick, then the write. -/
def memWrite (a : Addr) (v : Byte) (s : State) : State := busWrite a v (tick s)

/-- `Read16(a, b)` (R12): low byte first. -/
def read16 (a b : Addr) (s : State) : Addr × State :=
  let (lo, s) := memRead a s
  let (hi, s) := memRead b s
  (word hi lo, s)

/-! ### The stack (R12, R35) -/

/-- The stack address of a stack pointer (R35). -/
def stackAddr (sp : Byte) : Addr := word 0x01#8 sp

/-- `Push(v)` (R12). -/
def push (v : Byte) (s : State) : State :=
  let s := memWrite (stackAddr s.sp) v s
  s.setSp (s.sp - 1#8)

/-- `Pull()` (R12). -/
def pull (s : State) : Byte × State :=
  let s := s.setSp (s.sp + 1#8)
  memRead (stackAddr s.sp) s

/-- Push the two bytes of an address, the high one first (R82). -/
def pushWord (a : Addr) (s : State) : State := push (lo8 a) (push (hi8 a) s)

/-- Pull the two bytes of an address, the low one first (R82). -/
def pullWord (s : State) : Addr × State :=
  let (lo, s) := pull s
  let (hi, s) := pull s
  (word hi lo, s)

/-! ### Entering and leaving an interrupt -/

/-- Set P.I (R40). -/
def Flags.setI (p : Flags) (v : Bool) : Flags := { p with i := v }

/-- The common part of BRK and of interrupt entry (R400, R469): the return address and the status image with `b` in
bit 4 are pushed, I is set, and the pc is loaded from the vector. -/
def enterVector (ret : Addr) (b : Bool) (vec : Addr) (s : State) : State :=
  let s := pushWord ret s
  let s := push (s.p.pack b) s
  let s := s.setP (s.p.setI true)
  let (target, s) := read16 vec (vec + 1#16) s
  s.setPc target

/-- The two interrupts (R461). -/
inductive Interrupt where
  | nmi
  | irq
  deriving DecidableEq, Repr

/-- The vector of an interrupt (R98, R461). -/
def Interrupt.vector : Interrupt → Addr
  | .nmi => 0xFFFA#16
  | .irq => 0xFFFE#16

/-- `Interrupt(kind)` (R469). -/
def interrupt (k : Interrupt) (s : State) : State := enterVector s.pc false k.vector (tick (tick s))

/-- The return from an interrupt (R401): the flags, then the pc, with no + 1. -/
def returnFromInterrupt (s : State) : State :=
  let (m, s) := pull (tick (tick s))
  let (target, s) := pullWord (s.setP (unpack m))
  s.setPc target

end Sys2Proof.Machine
end

