-- ==== Sys2Proof/Machine/Operands.lean ====
section
/-!
DEFINITION. Machine/Operands.lean: the addressing modes and the three operation classes (40_addressing_modes.md). The
operand bytes have been fetched (Machine/Fetch.lean): what stands here is what each mode does after that.
-/

namespace Sys2Proof.Machine

/-- The operation classes of memory-operand instructions (R195). -/
inductive OpClass where
  | read
  | write
  | rmw
  deriving DecidableEq, Repr

/-- A memory operand: its mode, with the operand bytes fetched for it (R133). -/
inductive Operand where
  | zp (b : Byte)
  | zpx (b : Byte)
  | zpy (b : Byte)
  | abs (a : Addr)
  | abx (a : Addr)
  | aby (a : Addr)
  | izx (b : Byte)
  | izy (b : Byte)
  deriving DecidableEq, Repr

/-- `cross(a, i)`: indexing `a` by `i` leaves its page (R181). -/
def cross (a : Addr) (i : Byte) : Bool := decide ((a.toNat + i.toNat) / 256 ≠ a.toNat / 256)

/-- The penalty tick of an indexed mode: on a page cross in the read class (R189, R191, R192), always in the write and
rmw classes (R193, R194). -/
def penalty (c : OpClass) (base : Addr) (i : Byte) (s : State) : State :=
  match c with
  | .read => if cross base i then tick s else s
  | .write => tick s
  | .rmw => tick s

/-- A pointer in the zero page, both of whose bytes wrap within it (R188, R189). -/
def zeroPagePointer (b : Byte) (s : State) : Addr × State := read16 (zext16 b) (zext16 (b + 1#8)) s

/-- The effective address of a memory operand (R185 to R194). -/
def effectiveAddress (c : OpClass) (o : Operand) (s : State) : Addr × State :=
  match o with
  | .zp b => (zext16 b, s)
  | .zpx b => (zext16 (b + s.x), tick s)
  | .zpy b => (zext16 (b + s.y), tick s)
  | .abs a => (a, s)
  | .abx a => (a + zext16 s.x, penalty c a s.x s)
  | .aby a => (a + zext16 s.y, penalty c a s.y s)
  | .izx b => zeroPagePointer (b + s.x) (tick s)
  | .izy b =>
    let (base, s) := zeroPagePointer b s
    (base + zext16 s.y, penalty c base s.y s)

/-- The read class: the byte at the effective address, and then the register effect `f` (R195). -/
def readOp (f : Byte → State → State) (o : Operand) (s : State) : State :=
  let (ea, s) := effectiveAddress .read o s
  let (m, s) := memRead ea s
  f m s

/-- The write class: the value `f` is stored at the effective address; nothing is read (R195). -/
def writeOp (f : State → Byte) (o : Operand) (s : State) : State :=
  let (ea, s) := effectiveAddress .write o s
  memWrite ea (f s) s

/-- The rmw class: read, an internal tick, write; `f` gives the byte written, with its own flag effect, and `g` the
register effect that follows (R195). -/
def rmwOp (f : Byte → State → Byte × State) (g : Byte → State → State) (o : Operand) (s : State) : State :=
  let (ea, s) := effectiveAddress .rmw o s
  let (m, s) := memRead ea s
  let (r, s) := f m (tick s)
  g r (memWrite ea r s)

/-- A taken branch, and one not taken (R350): `s.pc` is the address of the next instruction. -/
def branch (taken : Bool) (d : Byte) (s : State) : State :=
  if taken then
    let target := s.pc + sext16 d
    if hi8 target = hi8 s.pc then (tick s).setPc target else (tick (tick s)).setPc target
  else s

end Sys2Proof.Machine
end

