-- ==== Sys2Proof/Machine/Arithmetic.lean ====
section
/-!
DEFINITION. Machine/Arithmetic.lean: the arithmetic, increment and decrement instructions (43_arithmetic.md).
-/

namespace Sys2Proof.Machine

/-- ADC's register effect: A, C, V, N and Z; binary whatever D is (R260, R269). -/
def adc (m : Byte) (s : State) : State :=
  let r := addWithCarry s.a m s.p.c
  (s.setA r.value).setP (s.p.ofSum r)

/-- SBC's register effect (R261). -/
def sbc (m : Byte) (s : State) : State :=
  let r := subWithCarry s.a m s.p.c
  (s.setA r.value).setP (s.p.ofSum r)

/-- INC's new byte (R263). -/
def inc (m : Byte) (s : State) : Byte × State := (m + 1#8, s)

/-- DEC's new byte (R264). -/
def dec (m : Byte) (s : State) : Byte × State := (m - 1#8, s)

/-- The flag effect of INC, DEC and the memory shifts: N and Z from the byte written (R263, R264, R310). -/
def nzOf (r : Byte) (s : State) : State := s.setNZ r

/-- 0x61 ADC izx (R260). -/
def execAdcIzx (b : Byte) (s : State) : Result := .next (readOp adc (.izx b) s)

/-- 0x65 ADC zp (R260). -/
def execAdcZp (b : Byte) (s : State) : Result := .next (readOp adc (.zp b) s)

/-- 0x69 ADC imm (R260). -/
def execAdcImm (v : Byte) (s : State) : Result := .next (adc v s)

/-- 0x6D ADC abs (R260). -/
def execAdcAbs (a : Addr) (s : State) : Result := .next (readOp adc (.abs a) s)

/-- 0x71 ADC izy (R260). -/
def execAdcIzy (b : Byte) (s : State) : Result := .next (readOp adc (.izy b) s)

/-- 0x75 ADC zpx (R260). -/
def execAdcZpx (b : Byte) (s : State) : Result := .next (readOp adc (.zpx b) s)

/-- 0x79 ADC aby (R260). -/
def execAdcAby (a : Addr) (s : State) : Result := .next (readOp adc (.aby a) s)

/-- 0x7D ADC abx (R260). -/
def execAdcAbx (a : Addr) (s : State) : Result := .next (readOp adc (.abx a) s)

/-- 0xE1 SBC izx (R261). -/
def execSbcIzx (b : Byte) (s : State) : Result := .next (readOp sbc (.izx b) s)

/-- 0xE5 SBC zp (R261). -/
def execSbcZp (b : Byte) (s : State) : Result := .next (readOp sbc (.zp b) s)

/-- 0xE9 SBC imm (R261). -/
def execSbcImm (v : Byte) (s : State) : Result := .next (sbc v s)

/-- 0xED SBC abs (R261). -/
def execSbcAbs (a : Addr) (s : State) : Result := .next (readOp sbc (.abs a) s)

/-- 0xF1 SBC izy (R261). -/
def execSbcIzy (b : Byte) (s : State) : Result := .next (readOp sbc (.izy b) s)

/-- 0xF5 SBC zpx (R261). -/
def execSbcZpx (b : Byte) (s : State) : Result := .next (readOp sbc (.zpx b) s)

/-- 0xF9 SBC aby (R261). -/
def execSbcAby (a : Addr) (s : State) : Result := .next (readOp sbc (.aby a) s)

/-- 0xFD SBC abx (R261). -/
def execSbcAbx (a : Addr) (s : State) : Result := .next (readOp sbc (.abx a) s)

/-- 0xE6 INC zp (R263). -/
def execIncZp (b : Byte) (s : State) : Result := .next (rmwOp inc nzOf (.zp b) s)

/-- 0xEE INC abs (R263). -/
def execIncAbs (a : Addr) (s : State) : Result := .next (rmwOp inc nzOf (.abs a) s)

/-- 0xF6 INC zpx (R263). -/
def execIncZpx (b : Byte) (s : State) : Result := .next (rmwOp inc nzOf (.zpx b) s)

/-- 0xFE INC abx (R263). -/
def execIncAbx (a : Addr) (s : State) : Result := .next (rmwOp inc nzOf (.abx a) s)

/-- 0xC6 DEC zp (R264). -/
def execDecZp (b : Byte) (s : State) : Result := .next (rmwOp dec nzOf (.zp b) s)

/-- 0xCE DEC abs (R264). -/
def execDecAbs (a : Addr) (s : State) : Result := .next (rmwOp dec nzOf (.abs a) s)

/-- 0xD6 DEC zpx (R264). -/
def execDecZpx (b : Byte) (s : State) : Result := .next (rmwOp dec nzOf (.zpx b) s)

/-- 0xDE DEC abx (R264). -/
def execDecAbx (a : Addr) (s : State) : Result := .next (rmwOp dec nzOf (.abx a) s)

/-- 0xE8 INX (R265). -/
def execInx (s : State) : Result := .next (tick ((s.setX (s.x + 1#8)).setNZ (s.x + 1#8)))

/-- 0xC8 INY (R266). -/
def execIny (s : State) : Result := .next (tick ((s.setY (s.y + 1#8)).setNZ (s.y + 1#8)))

/-- 0xCA DEX (R267). -/
def execDex (s : State) : Result := .next (tick ((s.setX (s.x - 1#8)).setNZ (s.x - 1#8)))

/-- 0x88 DEY (R268). -/
def execDey (s : State) : Result := .next (tick ((s.setY (s.y - 1#8)).setNZ (s.y - 1#8)))

end Sys2Proof.Machine
end

