-- ==== Sys2Proof/Machine/Compare.lean ====
section
/-!
DEFINITION. Machine/Compare.lean: the compare instructions (46_compare.md).
-/

namespace Sys2Proof.Machine

/-- CMP's flag effect (R330, R333). -/
def cmpA (m : Byte) (s : State) : State := s.setP (s.p.compare s.a m)

/-- CPX's flag effect (R331, R333). -/
def cmpX (m : Byte) (s : State) : State := s.setP (s.p.compare s.x m)

/-- CPY's flag effect (R332, R333). -/
def cmpY (m : Byte) (s : State) : State := s.setP (s.p.compare s.y m)

/-- 0xC1 CMP izx (R330). -/
def execCmpIzx (b : Byte) (s : State) : Result := .next (readOp cmpA (.izx b) s)

/-- 0xC5 CMP zp (R330). -/
def execCmpZp (b : Byte) (s : State) : Result := .next (readOp cmpA (.zp b) s)

/-- 0xC9 CMP imm (R330). -/
def execCmpImm (v : Byte) (s : State) : Result := .next (cmpA v s)

/-- 0xCD CMP abs (R330). -/
def execCmpAbs (a : Addr) (s : State) : Result := .next (readOp cmpA (.abs a) s)

/-- 0xD1 CMP izy (R330). -/
def execCmpIzy (b : Byte) (s : State) : Result := .next (readOp cmpA (.izy b) s)

/-- 0xD5 CMP zpx (R330). -/
def execCmpZpx (b : Byte) (s : State) : Result := .next (readOp cmpA (.zpx b) s)

/-- 0xD9 CMP aby (R330). -/
def execCmpAby (a : Addr) (s : State) : Result := .next (readOp cmpA (.aby a) s)

/-- 0xDD CMP abx (R330). -/
def execCmpAbx (a : Addr) (s : State) : Result := .next (readOp cmpA (.abx a) s)

/-- 0xE0 CPX imm (R331). -/
def execCpxImm (v : Byte) (s : State) : Result := .next (cmpX v s)

/-- 0xE4 CPX zp (R331). -/
def execCpxZp (b : Byte) (s : State) : Result := .next (readOp cmpX (.zp b) s)

/-- 0xEC CPX abs (R331). -/
def execCpxAbs (a : Addr) (s : State) : Result := .next (readOp cmpX (.abs a) s)

/-- 0xC0 CPY imm (R332). -/
def execCpyImm (v : Byte) (s : State) : Result := .next (cmpY v s)

/-- 0xC4 CPY zp (R332). -/
def execCpyZp (b : Byte) (s : State) : Result := .next (readOp cmpY (.zp b) s)

/-- 0xCC CPY abs (R332). -/
def execCpyAbs (a : Addr) (s : State) : Result := .next (readOp cmpY (.abs a) s)

end Sys2Proof.Machine
end

