-- ==== Sys2Proof/Machine/Control.lean ====
section
/-!
DEFINITION. Machine/Control.lean: branches, jumps, subroutine call and return (47_control_flow.md).
-/

namespace Sys2Proof.Machine

/-- The address JMP indirect reads its high byte at: the pointer's page is never left (R361). -/
def indirectHigh (ptr : Addr) : Addr := word (hi8 ptr) (lo8 (ptr + 1#16))

/-- JSR (R362): `lo` has been fetched and the pc is at the last byte of the instruction, whose address is pushed; that
byte, the target's high one, is read after the pushes. -/
def jsr (lo : Byte) (s : State) : State :=
  let s := pushWord s.pc (tick s)
  let (hi, s) := memRead s.pc s
  s.setPc (word hi lo)

/-- RTS (R363). -/
def rts (s : State) : State :=
  let (ret, s) := pullWord (tick (tick s))
  (tick s).setPc (ret + 1#16)

/-- 0x10 BPL (R351). -/
def execBpl (d : Byte) (s : State) : Result := .next (branch (!s.p.n) d s)

/-- 0x30 BMI (R352). -/
def execBmi (d : Byte) (s : State) : Result := .next (branch s.p.n d s)

/-- 0x50 BVC (R353). -/
def execBvc (d : Byte) (s : State) : Result := .next (branch (!s.p.v) d s)

/-- 0x70 BVS (R354). -/
def execBvs (d : Byte) (s : State) : Result := .next (branch s.p.v d s)

/-- 0x90 BCC (R355). -/
def execBcc (d : Byte) (s : State) : Result := .next (branch (!s.p.c) d s)

/-- 0xB0 BCS (R356). -/
def execBcs (d : Byte) (s : State) : Result := .next (branch s.p.c d s)

/-- 0xD0 BNE (R357). -/
def execBne (d : Byte) (s : State) : Result := .next (branch (!s.p.z) d s)

/-- 0xF0 BEQ (R358). -/
def execBeq (d : Byte) (s : State) : Result := .next (branch s.p.z d s)

/-- 0x4C JMP abs (R360). -/
def execJmpAbs (a : Addr) (s : State) : Result := .next (s.setPc a)

/-- 0x6C JMP ind (R361). -/
def execJmpInd (a : Addr) (s : State) : Result :=
  let (target, s) := read16 a (indirectHigh a) s
  .next (s.setPc target)

/-- 0x20 JSR abs (R362). -/
def execJsr (lo : Byte) (s : State) : Result := .next (jsr lo s)

/-- 0x60 RTS (R363). -/
def execRts (s : State) : Result := .next (rts s)

end Sys2Proof.Machine
end

