-- ==== Sys2Proof/Machine/LoadStore.lean ====
section
/-!
DEFINITION. Machine/LoadStore.lean: the load and store instructions (41_load_store.md). A loaded byte that is immediate is the
operand byte itself.
-/

namespace Sys2Proof.Machine

/-- LDA's register effect (R220). -/
def lda (m : Byte) (s : State) : State := (s.setA m).setNZ m

/-- LDX's register effect (R221). -/
def ldx (m : Byte) (s : State) : State := (s.setX m).setNZ m

/-- LDY's register effect (R222). -/
def ldy (m : Byte) (s : State) : State := (s.setY m).setNZ m

/-- 0xA1 LDA izx (R220). -/
def execLdaIzx (b : Byte) (s : State) : Result := .next (readOp lda (.izx b) s)

/-- 0xA5 LDA zp (R220). -/
def execLdaZp (b : Byte) (s : State) : Result := .next (readOp lda (.zp b) s)

/-- 0xA9 LDA imm (R220). -/
def execLdaImm (v : Byte) (s : State) : Result := .next (lda v s)

/-- 0xAD LDA abs (R220). -/
def execLdaAbs (a : Addr) (s : State) : Result := .next (readOp lda (.abs a) s)

/-- 0xB1 LDA izy (R220). -/
def execLdaIzy (b : Byte) (s : State) : Result := .next (readOp lda (.izy b) s)

/-- 0xB5 LDA zpx (R220). -/
def execLdaZpx (b : Byte) (s : State) : Result := .next (readOp lda (.zpx b) s)

/-- 0xB9 LDA aby (R220). -/
def execLdaAby (a : Addr) (s : State) : Result := .next (readOp lda (.aby a) s)

/-- 0xBD LDA abx (R220). -/
def execLdaAbx (a : Addr) (s : State) : Result := .next (readOp lda (.abx a) s)

/-- 0xA2 LDX imm (R221). -/
def execLdxImm (v : Byte) (s : State) : Result := .next (ldx v s)

/-- 0xA6 LDX zp (R221). -/
def execLdxZp (b : Byte) (s : State) : Result := .next (readOp ldx (.zp b) s)

/-- 0xAE LDX abs (R221). -/
def execLdxAbs (a : Addr) (s : State) : Result := .next (readOp ldx (.abs a) s)

/-- 0xB6 LDX zpy (R221). -/
def execLdxZpy (b : Byte) (s : State) : Result := .next (readOp ldx (.zpy b) s)

/-- 0xBE LDX aby (R221). -/
def execLdxAby (a : Addr) (s : State) : Result := .next (readOp ldx (.aby a) s)

/-- 0xA0 LDY imm (R222). -/
def execLdyImm (v : Byte) (s : State) : Result := .next (ldy v s)

/-- 0xA4 LDY zp (R222). -/
def execLdyZp (b : Byte) (s : State) : Result := .next (readOp ldy (.zp b) s)

/-- 0xAC LDY abs (R222). -/
def execLdyAbs (a : Addr) (s : State) : Result := .next (readOp ldy (.abs a) s)

/-- 0xB4 LDY zpx (R222). -/
def execLdyZpx (b : Byte) (s : State) : Result := .next (readOp ldy (.zpx b) s)

/-- 0xBC LDY abx (R222). -/
def execLdyAbx (a : Addr) (s : State) : Result := .next (readOp ldy (.abx a) s)

/-- 0x81 STA izx (R223). -/
def execStaIzx (b : Byte) (s : State) : Result := .next (writeOp (·.a) (.izx b) s)

/-- 0x85 STA zp (R223). -/
def execStaZp (b : Byte) (s : State) : Result := .next (writeOp (·.a) (.zp b) s)

/-- 0x8D STA abs (R223). -/
def execStaAbs (a : Addr) (s : State) : Result := .next (writeOp (·.a) (.abs a) s)

/-- 0x91 STA izy (R223). -/
def execStaIzy (b : Byte) (s : State) : Result := .next (writeOp (·.a) (.izy b) s)

/-- 0x95 STA zpx (R223). -/
def execStaZpx (b : Byte) (s : State) : Result := .next (writeOp (·.a) (.zpx b) s)

/-- 0x99 STA aby (R223). -/
def execStaAby (a : Addr) (s : State) : Result := .next (writeOp (·.a) (.aby a) s)

/-- 0x9D STA abx (R223). -/
def execStaAbx (a : Addr) (s : State) : Result := .next (writeOp (·.a) (.abx a) s)

/-- 0x86 STX zp (R224). -/
def execStxZp (b : Byte) (s : State) : Result := .next (writeOp (·.x) (.zp b) s)

/-- 0x8E STX abs (R224). -/
def execStxAbs (a : Addr) (s : State) : Result := .next (writeOp (·.x) (.abs a) s)

/-- 0x96 STX zpy (R224). -/
def execStxZpy (b : Byte) (s : State) : Result := .next (writeOp (·.x) (.zpy b) s)

/-- 0x84 STY zp (R225). -/
def execStyZp (b : Byte) (s : State) : Result := .next (writeOp (·.y) (.zp b) s)

/-- 0x8C STY abs (R225). -/
def execStyAbs (a : Addr) (s : State) : Result := .next (writeOp (·.y) (.abs a) s)

/-- 0x94 STY zpx (R225). -/
def execStyZpx (b : Byte) (s : State) : Result := .next (writeOp (·.y) (.zpx b) s)

end Sys2Proof.Machine
end

