-- ==== Sys2Proof/Machine/Logical.lean ====
section
/-!
DEFINITION. Machine/Logical.lean: the logical instructions (44_logical.md).
-/

namespace Sys2Proof.Machine

/-- AND's register effect (R290). -/
def andA (m : Byte) (s : State) : State := (s.setA (s.a &&& m)).setNZ (s.a &&& m)

/-- ORA's register effect (R291). -/
def oraA (m : Byte) (s : State) : State := (s.setA (s.a ||| m)).setNZ (s.a ||| m)

/-- EOR's register effect (R292). -/
def eorA (m : Byte) (s : State) : State := (s.setA (s.a ^^^ m)).setNZ (s.a ^^^ m)

/-- BIT's flag effect (R293). -/
def bitA (m : Byte) (s : State) : State := s.setP (s.p.bitTest s.a m)

/-- 0x21 AND izx (R290). -/
def execAndIzx (b : Byte) (s : State) : Result := .next (readOp andA (.izx b) s)

/-- 0x25 AND zp (R290). -/
def execAndZp (b : Byte) (s : State) : Result := .next (readOp andA (.zp b) s)

/-- 0x29 AND imm (R290). -/
def execAndImm (v : Byte) (s : State) : Result := .next (andA v s)

/-- 0x2D AND abs (R290). -/
def execAndAbs (a : Addr) (s : State) : Result := .next (readOp andA (.abs a) s)

/-- 0x31 AND izy (R290). -/
def execAndIzy (b : Byte) (s : State) : Result := .next (readOp andA (.izy b) s)

/-- 0x35 AND zpx (R290). -/
def execAndZpx (b : Byte) (s : State) : Result := .next (readOp andA (.zpx b) s)

/-- 0x39 AND aby (R290). -/
def execAndAby (a : Addr) (s : State) : Result := .next (readOp andA (.aby a) s)

/-- 0x3D AND abx (R290). -/
def execAndAbx (a : Addr) (s : State) : Result := .next (readOp andA (.abx a) s)

/-- 0x01 ORA izx (R291). -/
def execOraIzx (b : Byte) (s : State) : Result := .next (readOp oraA (.izx b) s)

/-- 0x05 ORA zp (R291). -/
def execOraZp (b : Byte) (s : State) : Result := .next (readOp oraA (.zp b) s)

/-- 0x09 ORA imm (R291). -/
def execOraImm (v : Byte) (s : State) : Result := .next (oraA v s)

/-- 0x0D ORA abs (R291). -/
def execOraAbs (a : Addr) (s : State) : Result := .next (readOp oraA (.abs a) s)

/-- 0x11 ORA izy (R291). -/
def execOraIzy (b : Byte) (s : State) : Result := .next (readOp oraA (.izy b) s)

/-- 0x15 ORA zpx (R291). -/
def execOraZpx (b : Byte) (s : State) : Result := .next (readOp oraA (.zpx b) s)

/-- 0x19 ORA aby (R291). -/
def execOraAby (a : Addr) (s : State) : Result := .next (readOp oraA (.aby a) s)

/-- 0x1D ORA abx (R291). -/
def execOraAbx (a : Addr) (s : State) : Result := .next (readOp oraA (.abx a) s)

/-- 0x41 EOR izx (R292). -/
def execEorIzx (b : Byte) (s : State) : Result := .next (readOp eorA (.izx b) s)

/-- 0x45 EOR zp (R292). -/
def execEorZp (b : Byte) (s : State) : Result := .next (readOp eorA (.zp b) s)

/-- 0x49 EOR imm (R292). -/
def execEorImm (v : Byte) (s : State) : Result := .next (eorA v s)

/-- 0x4D EOR abs (R292). -/
def execEorAbs (a : Addr) (s : State) : Result := .next (readOp eorA (.abs a) s)

/-- 0x51 EOR izy (R292). -/
def execEorIzy (b : Byte) (s : State) : Result := .next (readOp eorA (.izy b) s)

/-- 0x55 EOR zpx (R292). -/
def execEorZpx (b : Byte) (s : State) : Result := .next (readOp eorA (.zpx b) s)

/-- 0x59 EOR aby (R292). -/
def execEorAby (a : Addr) (s : State) : Result := .next (readOp eorA (.aby a) s)

/-- 0x5D EOR abx (R292). -/
def execEorAbx (a : Addr) (s : State) : Result := .next (readOp eorA (.abx a) s)

/-- 0x24 BIT zp (R293). -/
def execBitZp (b : Byte) (s : State) : Result := .next (readOp bitA (.zp b) s)

/-- 0x2C BIT abs (R293). -/
def execBitAbs (a : Addr) (s : State) : Result := .next (readOp bitA (.abs a) s)

end Sys2Proof.Machine
end

