-- ==== Sys2Proof/Machine/Shift.lean ====
section
/-!
DEFINITION. Machine/Shift.lean: the shifts and rotates (45_shift_rotate.md).
-/

namespace Sys2Proof.Machine

/-- A shift's byte and its carry flag (R310 to R313). -/
def shifted (r : Shifted) (s : State) : Byte × State := (r.value, s.setC r.carry)

/-- ASL's `f` (R310). -/
def asl (m : Byte) (s : State) : Byte × State := shifted (shiftLeft m) s

/-- LSR's `f` (R311). -/
def lsr (m : Byte) (s : State) : Byte × State := shifted (shiftRight m) s

/-- ROL's `f` (R312). -/
def rol (m : Byte) (s : State) : Byte × State := shifted (rotateLeft m s.p.c) s

/-- ROR's `f` (R313). -/
def ror (m : Byte) (s : State) : Byte × State := shifted (rotateRight m s.p.c) s

/-- The accumulator form of `Operate(f)` (45_shift_rotate.md, R183). -/
def accOp (f : Byte → State → Byte × State) (s : State) : State :=
  let (r, s) := f s.a (tick s)
  (s.setA r).setNZ r

/-- 0x06 ASL zp (R310). -/
def execAslZp (b : Byte) (s : State) : Result := .next (rmwOp asl nzOf (.zp b) s)

/-- 0x0A ASL A (R310). -/
def execAslAcc (s : State) : Result := .next (accOp asl s)

/-- 0x0E ASL abs (R310). -/
def execAslAbs (a : Addr) (s : State) : Result := .next (rmwOp asl nzOf (.abs a) s)

/-- 0x16 ASL zpx (R310). -/
def execAslZpx (b : Byte) (s : State) : Result := .next (rmwOp asl nzOf (.zpx b) s)

/-- 0x1E ASL abx (R310). -/
def execAslAbx (a : Addr) (s : State) : Result := .next (rmwOp asl nzOf (.abx a) s)

/-- 0x46 LSR zp (R311). -/
def execLsrZp (b : Byte) (s : State) : Result := .next (rmwOp lsr nzOf (.zp b) s)

/-- 0x4A LSR A (R311). -/
def execLsrAcc (s : State) : Result := .next (accOp lsr s)

/-- 0x4E LSR abs (R311). -/
def execLsrAbs (a : Addr) (s : State) : Result := .next (rmwOp lsr nzOf (.abs a) s)

/-- 0x56 LSR zpx (R311). -/
def execLsrZpx (b : Byte) (s : State) : Result := .next (rmwOp lsr nzOf (.zpx b) s)

/-- 0x5E LSR abx (R311). -/
def execLsrAbx (a : Addr) (s : State) : Result := .next (rmwOp lsr nzOf (.abx a) s)

/-- 0x26 ROL zp (R312). -/
def execRolZp (b : Byte) (s : State) : Result := .next (rmwOp rol nzOf (.zp b) s)

/-- 0x2A ROL A (R312). -/
def execRolAcc (s : State) : Result := .next (accOp rol s)

/-- 0x2E ROL abs (R312). -/
def execRolAbs (a : Addr) (s : State) : Result := .next (rmwOp rol nzOf (.abs a) s)

/-- 0x36 ROL zpx (R312). -/
def execRolZpx (b : Byte) (s : State) : Result := .next (rmwOp rol nzOf (.zpx b) s)

/-- 0x3E ROL abx (R312). -/
def execRolAbx (a : Addr) (s : State) : Result := .next (rmwOp rol nzOf (.abx a) s)

/-- 0x66 ROR zp (R313). -/
def execRorZp (b : Byte) (s : State) : Result := .next (rmwOp ror nzOf (.zp b) s)

/-- 0x6A ROR A (R313). -/
def execRorAcc (s : State) : Result := .next (accOp ror s)

/-- 0x6E ROR abs (R313). -/
def execRorAbs (a : Addr) (s : State) : Result := .next (rmwOp ror nzOf (.abs a) s)

/-- 0x76 ROR zpx (R313). -/
def execRorZpx (b : Byte) (s : State) : Result := .next (rmwOp ror nzOf (.zpx b) s)

/-- 0x7E ROR abx (R313). -/
def execRorAbx (a : Addr) (s : State) : Result := .next (rmwOp ror nzOf (.abx a) s)

end Sys2Proof.Machine
end

