-- ==== Sys2Proof/Machine/System.lean ====
section
/-!
DEFINITION. Machine/System.lean: stack, flag, break, return-from-interrupt and no-operation instructions
(48_stack_flags_system.md).
-/

namespace Sys2Proof.Machine

/-- PLA's register effect after its pull (R382). -/
def pla (s : State) : State :=
  let (m, s) := pull (tick (tick s))
  (s.setA m).setNZ m

/-- PLP (R383). -/
def plp (s : State) : State :=
  let (m, s) := pull (tick (tick s))
  s.setP (unpack m)

/-- BRK (R400): `s.pc` is one past the opcode; the padding byte there is read and skipped. -/
def brk (s : State) : State :=
  let ret := s.pc - 1#16 + s.params.brkReturnOffset
  let (_, s) := memRead s.pc s
  enterVector ret true 0xFFFE#16 (s.setPc (s.pc + 1#16))

/-- 0x48 PHA (R380). -/
def execPha (s : State) : Result := .next (push s.a (tick s))

/-- 0x08 PHP (R381). -/
def execPhp (s : State) : Result := .next (push (s.p.pack true) (tick s))

/-- 0x68 PLA (R382). -/
def execPla (s : State) : Result := .next (pla s)

/-- 0x28 PLP (R383). -/
def execPlp (s : State) : Result := .next (plp s)

/-- 0x18 CLC (R390). -/
def execClc (s : State) : Result := .next ((tick s).setP { s.p with c := false })

/-- 0x38 SEC (R391). -/
def execSec (s : State) : Result := .next ((tick s).setP { s.p with c := true })

/-- 0x58 CLI (R392). -/
def execCli (s : State) : Result := .next ((tick s).setP { s.p with i := false })

/-- 0x78 SEI (R393). -/
def execSei (s : State) : Result := .next ((tick s).setP { s.p with i := true })

/-- 0xD8 CLD (R394). -/
def execCld (s : State) : Result := .next ((tick s).setP { s.p with d := false })

/-- 0xF8 SED (R395). -/
def execSed (s : State) : Result := .next ((tick s).setP { s.p with d := true })

/-- 0xB8 CLV (R396). -/
def execClv (s : State) : Result := .next ((tick s).setP { s.p with v := false })

/-- 0x00 BRK (R400). -/
def execBrk (s : State) : Result := .next (brk s)

/-- 0x40 RTI (R401). -/
def execRti (s : State) : Result := .next (returnFromInterrupt s)

/-- 0xEA NOP (R402). -/
def execNop (s : State) : Result := .next (tick s)

end Sys2Proof.Machine
end

