-- ==== Sys2Proof/Machine/Transfer.lean ====
section
/-!
DEFINITION. Machine/Transfer.lean: the register transfers (42_transfer.md). TXS writes no flag (R245).
-/

namespace Sys2Proof.Machine

/-- 0xAA TAX (R240). -/
def execTax (s : State) : Result := .next (tick ((s.setX s.a).setNZ s.a))

/-- 0xA8 TAY (R241). -/
def execTay (s : State) : Result := .next (tick ((s.setY s.a).setNZ s.a))

/-- 0x8A TXA (R242). -/
def execTxa (s : State) : Result := .next (tick ((s.setA s.x).setNZ s.x))

/-- 0x98 TYA (R243). -/
def execTya (s : State) : Result := .next (tick ((s.setA s.y).setNZ s.y))

/-- 0xBA TSX (R244). -/
def execTsx (s : State) : Result := .next (tick ((s.setX s.sp).setNZ s.sp))

/-- 0x9A TXS (R245). -/
def execTxs (s : State) : Result := .next (tick (s.setSp s.x))

end Sys2Proof.Machine
end

