-- ==== Sys2Proof/Machine/Unofficial.lean ====
section
/-!
DEFINITION. Machine/Unofficial.lean: the unofficial and undefined opcodes (49_unofficial.md).
-/

namespace Sys2Proof.Machine

/-- The memory forms of the unofficial NOPs use nothing of the byte they read (R421). -/
def discard (_ : Byte) (s : State) : State := s

/-- LAX's register effect (R422). -/
def lax (m : Byte) (s : State) : State := ((s.setA m).setX m).setNZ m

/-- An undefined opcode: a no-op of two ticks with a diagnostic, or the model's fault under the policy that asks for
it; `s.pc` is one past the opcode (R440, R441). -/
def undefinedOpcode (op : Byte) (s : State) : Result :=
  match s.params.undefinedPolicy with
  | .nop => .next ((tick s).emit (.undefinedOpcode op (s.pc - 1#16)))
  | .fault => .fault (.undefinedOpcode op (s.pc - 1#16))

/-- 0x04 NOP zp (R421). -/
def execNop04 (b : Byte) (s : State) : Result := .next (readOp discard (.zp b) s)

/-- 0x0C NOP abs (R421). -/
def execNop0C (a : Addr) (s : State) : Result := .next (readOp discard (.abs a) s)

/-- 0x14 NOP zpx (R421). -/
def execNop14 (b : Byte) (s : State) : Result := .next (readOp discard (.zpx b) s)

/-- 0x1A NOP (R421). -/
def execNop1A (s : State) : Result := .next (tick s)

/-- 0x1C NOP abx (R421). -/
def execNop1C (a : Addr) (s : State) : Result := .next (readOp discard (.abx a) s)

/-- 0x34 NOP zpx (R421). -/
def execNop34 (b : Byte) (s : State) : Result := .next (readOp discard (.zpx b) s)

/-- 0x3A NOP (R421). -/
def execNop3A (s : State) : Result := .next (tick s)

/-- 0x3C NOP abx (R421). -/
def execNop3C (a : Addr) (s : State) : Result := .next (readOp discard (.abx a) s)

/-- 0x44 NOP zp (R421). -/
def execNop44 (b : Byte) (s : State) : Result := .next (readOp discard (.zp b) s)

/-- 0x54 NOP zpx (R421). -/
def execNop54 (b : Byte) (s : State) : Result := .next (readOp discard (.zpx b) s)

/-- 0x5A NOP (R421). -/
def execNop5A (s : State) : Result := .next (tick s)

/-- 0x5C NOP abx (R421). -/
def execNop5C (a : Addr) (s : State) : Result := .next (readOp discard (.abx a) s)

/-- 0x64 NOP zp (R421). -/
def execNop64 (b : Byte) (s : State) : Result := .next (readOp discard (.zp b) s)

/-- 0x74 NOP zpx (R421). -/
def execNop74 (b : Byte) (s : State) : Result := .next (readOp discard (.zpx b) s)

/-- 0x7A NOP (R421). -/
def execNop7A (s : State) : Result := .next (tick s)

/-- 0x7C NOP abx (R421). -/
def execNop7C (a : Addr) (s : State) : Result := .next (readOp discard (.abx a) s)

/-- 0x80 NOP imm (R421). -/
def execNop80 (_ : Byte) (s : State) : Result := .next s

/-- 0x82 NOP imm (R421). -/
def execNop82 (_ : Byte) (s : State) : Result := .next s

/-- 0x89 NOP imm (R421). -/
def execNop89 (_ : Byte) (s : State) : Result := .next s

/-- 0xC2 NOP imm (R421). -/
def execNopC2 (_ : Byte) (s : State) : Result := .next s

/-- 0xD4 NOP zpx (R421). -/
def execNopD4 (b : Byte) (s : State) : Result := .next (readOp discard (.zpx b) s)

/-- 0xDA NOP (R421). -/
def execNopDA (s : State) : Result := .next (tick s)

/-- 0xDC NOP abx (R421). -/
def execNopDC (a : Addr) (s : State) : Result := .next (readOp discard (.abx a) s)

/-- 0xE2 NOP imm (R421). -/
def execNopE2 (_ : Byte) (s : State) : Result := .next s

/-- 0xF4 NOP zpx (R421). -/
def execNopF4 (b : Byte) (s : State) : Result := .next (readOp discard (.zpx b) s)

/-- 0xFA NOP (R421). -/
def execNopFA (s : State) : Result := .next (tick s)

/-- 0xFC NOP abx (R421). -/
def execNopFC (a : Addr) (s : State) : Result := .next (readOp discard (.abx a) s)

/-- 0xA3 LAX izx (R422). -/
def execLaxIzx (b : Byte) (s : State) : Result := .next (readOp lax (.izx b) s)

/-- 0xA7 LAX zp (R422). -/
def execLaxZp (b : Byte) (s : State) : Result := .next (readOp lax (.zp b) s)

/-- 0xAF LAX abs (R422). -/
def execLaxAbs (a : Addr) (s : State) : Result := .next (readOp lax (.abs a) s)

/-- 0xB3 LAX izy (R422). -/
def execLaxIzy (b : Byte) (s : State) : Result := .next (readOp lax (.izy b) s)

/-- 0xB7 LAX zpy (R422). -/
def execLaxZpy (b : Byte) (s : State) : Result := .next (readOp lax (.zpy b) s)

/-- 0xBF LAX aby (R422). -/
def execLaxAby (a : Addr) (s : State) : Result := .next (readOp lax (.aby a) s)

/-- 0x83 SAX izx (R423). -/
def execSaxIzx (b : Byte) (s : State) : Result := .next (writeOp (fun s => s.a &&& s.x) (.izx b) s)

/-- 0x87 SAX zp (R423). -/
def execSaxZp (b : Byte) (s : State) : Result := .next (writeOp (fun s => s.a &&& s.x) (.zp b) s)

/-- 0x8F SAX abs (R423). -/
def execSaxAbs (a : Addr) (s : State) : Result := .next (writeOp (fun s => s.a &&& s.x) (.abs a) s)

/-- 0x97 SAX zpy (R423). -/
def execSaxZpy (b : Byte) (s : State) : Result := .next (writeOp (fun s => s.a &&& s.x) (.zpy b) s)

/-- 0xEB SBC imm (R424). -/
def execSbcImmEB (v : Byte) (s : State) : Result := .next (sbc v s)

/-- 0xC3 DCP izx (R425). -/
def execDcpIzx (b : Byte) (s : State) : Result := .next (rmwOp dec cmpA (.izx b) s)

/-- 0xC7 DCP zp (R425). -/
def execDcpZp (b : Byte) (s : State) : Result := .next (rmwOp dec cmpA (.zp b) s)

/-- 0xCF DCP abs (R425). -/
def execDcpAbs (a : Addr) (s : State) : Result := .next (rmwOp dec cmpA (.abs a) s)

/-- 0xD3 DCP izy (R425). -/
def execDcpIzy (b : Byte) (s : State) : Result := .next (rmwOp dec cmpA (.izy b) s)

/-- 0xD7 DCP zpx (R425). -/
def execDcpZpx (b : Byte) (s : State) : Result := .next (rmwOp dec cmpA (.zpx b) s)

/-- 0xDB DCP aby (R425). -/
def execDcpAby (a : Addr) (s : State) : Result := .next (rmwOp dec cmpA (.aby a) s)

/-- 0xDF DCP abx (R425). -/
def execDcpAbx (a : Addr) (s : State) : Result := .next (rmwOp dec cmpA (.abx a) s)

/-- 0xE3 ISB izx (R426). -/
def execIsbIzx (b : Byte) (s : State) : Result := .next (rmwOp inc sbc (.izx b) s)

/-- 0xE7 ISB zp (R426). -/
def execIsbZp (b : Byte) (s : State) : Result := .next (rmwOp inc sbc (.zp b) s)

/-- 0xEF ISB abs (R426). -/
def execIsbAbs (a : Addr) (s : State) : Result := .next (rmwOp inc sbc (.abs a) s)

/-- 0xF3 ISB izy (R426). -/
def execIsbIzy (b : Byte) (s : State) : Result := .next (rmwOp inc sbc (.izy b) s)

/-- 0xF7 ISB zpx (R426). -/
def execIsbZpx (b : Byte) (s : State) : Result := .next (rmwOp inc sbc (.zpx b) s)

/-- 0xFB ISB aby (R426). -/
def execIsbAby (a : Addr) (s : State) : Result := .next (rmwOp inc sbc (.aby a) s)

/-- 0xFF ISB abx (R426). -/
def execIsbAbx (a : Addr) (s : State) : Result := .next (rmwOp inc sbc (.abx a) s)

/-- 0x03 SLO izx (R427). -/
def execSloIzx (b : Byte) (s : State) : Result := .next (rmwOp asl oraA (.izx b) s)

/-- 0x07 SLO zp (R427). -/
def execSloZp (b : Byte) (s : State) : Result := .next (rmwOp asl oraA (.zp b) s)

/-- 0x0F SLO abs (R427). -/
def execSloAbs (a : Addr) (s : State) : Result := .next (rmwOp asl oraA (.abs a) s)

/-- 0x13 SLO izy (R427). -/
def execSloIzy (b : Byte) (s : State) : Result := .next (rmwOp asl oraA (.izy b) s)

/-- 0x17 SLO zpx (R427). -/
def execSloZpx (b : Byte) (s : State) : Result := .next (rmwOp asl oraA (.zpx b) s)

/-- 0x1B SLO aby (R427). -/
def execSloAby (a : Addr) (s : State) : Result := .next (rmwOp asl oraA (.aby a) s)

/-- 0x1F SLO abx (R427). -/
def execSloAbx (a : Addr) (s : State) : Result := .next (rmwOp asl oraA (.abx a) s)

/-- 0x23 RLA izx (R428). -/
def execRlaIzx (b : Byte) (s : State) : Result := .next (rmwOp rol andA (.izx b) s)

/-- 0x27 RLA zp (R428). -/
def execRlaZp (b : Byte) (s : State) : Result := .next (rmwOp rol andA (.zp b) s)

/-- 0x2F RLA abs (R428). -/
def execRlaAbs (a : Addr) (s : State) : Result := .next (rmwOp rol andA (.abs a) s)

/-- 0x33 RLA izy (R428). -/
def execRlaIzy (b : Byte) (s : State) : Result := .next (rmwOp rol andA (.izy b) s)

/-- 0x37 RLA zpx (R428). -/
def execRlaZpx (b : Byte) (s : State) : Result := .next (rmwOp rol andA (.zpx b) s)

/-- 0x3B RLA aby (R428). -/
def execRlaAby (a : Addr) (s : State) : Result := .next (rmwOp rol andA (.aby a) s)

/-- 0x3F RLA abx (R428). -/
def execRlaAbx (a : Addr) (s : State) : Result := .next (rmwOp rol andA (.abx a) s)

/-- 0x43 SRE izx (R429). -/
def execSreIzx (b : Byte) (s : State) : Result := .next (rmwOp lsr eorA (.izx b) s)

/-- 0x47 SRE zp (R429). -/
def execSreZp (b : Byte) (s : State) : Result := .next (rmwOp lsr eorA (.zp b) s)

/-- 0x4F SRE abs (R429). -/
def execSreAbs (a : Addr) (s : State) : Result := .next (rmwOp lsr eorA (.abs a) s)

/-- 0x53 SRE izy (R429). -/
def execSreIzy (b : Byte) (s : State) : Result := .next (rmwOp lsr eorA (.izy b) s)

/-- 0x57 SRE zpx (R429). -/
def execSreZpx (b : Byte) (s : State) : Result := .next (rmwOp lsr eorA (.zpx b) s)

/-- 0x5B SRE aby (R429). -/
def execSreAby (a : Addr) (s : State) : Result := .next (rmwOp lsr eorA (.aby a) s)

/-- 0x5F SRE abx (R429). -/
def execSreAbx (a : Addr) (s : State) : Result := .next (rmwOp lsr eorA (.abx a) s)

/-- 0x63 RRA izx (R430). -/
def execRraIzx (b : Byte) (s : State) : Result := .next (rmwOp ror adc (.izx b) s)

/-- 0x67 RRA zp (R430). -/
def execRraZp (b : Byte) (s : State) : Result := .next (rmwOp ror adc (.zp b) s)

/-- 0x6F RRA abs (R430). -/
def execRraAbs (a : Addr) (s : State) : Result := .next (rmwOp ror adc (.abs a) s)

/-- 0x73 RRA izy (R430). -/
def execRraIzy (b : Byte) (s : State) : Result := .next (rmwOp ror adc (.izy b) s)

/-- 0x77 RRA zpx (R430). -/
def execRraZpx (b : Byte) (s : State) : Result := .next (rmwOp ror adc (.zpx b) s)

/-- 0x7B RRA aby (R430). -/
def execRraAby (a : Addr) (s : State) : Result := .next (rmwOp ror adc (.aby a) s)

/-- 0x7F RRA abx (R430). -/
def execRraAbx (a : Addr) (s : State) : Result := .next (rmwOp ror adc (.abx a) s)

/-- 0x02 UNDEFINED (R440). -/
def execUndef02 (s : State) : Result := undefinedOpcode 0x02#8 s

/-- 0x0B UNDEFINED (R440). -/
def execUndef0B (s : State) : Result := undefinedOpcode 0x0B#8 s

/-- 0x12 UNDEFINED (R440). -/
def execUndef12 (s : State) : Result := undefinedOpcode 0x12#8 s

/-- 0x22 UNDEFINED (R440). -/
def execUndef22 (s : State) : Result := undefinedOpcode 0x22#8 s

/-- 0x2B UNDEFINED (R440). -/
def execUndef2B (s : State) : Result := undefinedOpcode 0x2B#8 s

/-- 0x32 UNDEFINED (R440). -/
def execUndef32 (s : State) : Result := undefinedOpcode 0x32#8 s

/-- 0x42 UNDEFINED (R440). -/
def execUndef42 (s : State) : Result := undefinedOpcode 0x42#8 s

/-- 0x4B UNDEFINED (R440). -/
def execUndef4B (s : State) : Result := undefinedOpcode 0x4B#8 s

/-- 0x52 UNDEFINED (R440). -/
def execUndef52 (s : State) : Result := undefinedOpcode 0x52#8 s

/-- 0x62 UNDEFINED (R440). -/
def execUndef62 (s : State) : Result := undefinedOpcode 0x62#8 s

/-- 0x6B UNDEFINED (R440). -/
def execUndef6B (s : State) : Result := undefinedOpcode 0x6B#8 s

/-- 0x72 UNDEFINED (R440). -/
def execUndef72 (s : State) : Result := undefinedOpcode 0x72#8 s

/-- 0x8B UNDEFINED (R440). -/
def execUndef8B (s : State) : Result := undefinedOpcode 0x8B#8 s

/-- 0x92 UNDEFINED (R440). -/
def execUndef92 (s : State) : Result := undefinedOpcode 0x92#8 s

/-- 0x93 UNDEFINED (R440). -/
def execUndef93 (s : State) : Result := undefinedOpcode 0x93#8 s

/-- 0x9B UNDEFINED (R440). -/
def execUndef9B (s : State) : Result := undefinedOpcode 0x9B#8 s

/-- 0x9C UNDEFINED (R440). -/
def execUndef9C (s : State) : Result := undefinedOpcode 0x9C#8 s

/-- 0x9E UNDEFINED (R440). -/
def execUndef9E (s : State) : Result := undefinedOpcode 0x9E#8 s

/-- 0x9F UNDEFINED (R440). -/
def execUndef9F (s : State) : Result := undefinedOpcode 0x9F#8 s

/-- 0xAB UNDEFINED (R440). -/
def execUndefAB (s : State) : Result := undefinedOpcode 0xAB#8 s

/-- 0xB2 UNDEFINED (R440). -/
def execUndefB2 (s : State) : Result := undefinedOpcode 0xB2#8 s

/-- 0xBB UNDEFINED (R440). -/
def execUndefBB (s : State) : Result := undefinedOpcode 0xBB#8 s

/-- 0xCB UNDEFINED (R440). -/
def execUndefCB (s : State) : Result := undefinedOpcode 0xCB#8 s

/-- 0xD2 UNDEFINED (R440). -/
def execUndefD2 (s : State) : Result := undefinedOpcode 0xD2#8 s

/-- 0xF2 UNDEFINED (R440). -/
def execUndefF2 (s : State) : Result := undefinedOpcode 0xF2#8 s

end Sys2Proof.Machine
end

