-- ==== Sys2Proof/Machine/Dispatch.lean ====
section
/-! DEFINITION. Machine/Dispatch.lean: one arm per instruction, in the order of the opcode map (R135). The state is the
one after the instruction's bytes have been fetched (Machine/Fetch.lean). -/

namespace Sys2Proof.Machine

def exec (i : Instr) (s : State) : Host.Outcome State Fault Refusal :=
  match i with
  | .brk => Sys2Proof.Machine.execBrk s
  | .oraIzx b => Sys2Proof.Machine.execOraIzx b s
  | .undef02 => Sys2Proof.Machine.execUndef02 s
  | .sloIzx b => Sys2Proof.Machine.execSloIzx b s
  | .nop04 b => Sys2Proof.Machine.execNop04 b s
  | .oraZp b => Sys2Proof.Machine.execOraZp b s
  | .aslZp b => Sys2Proof.Machine.execAslZp b s
  | .sloZp b => Sys2Proof.Machine.execSloZp b s
  | .php => Sys2Proof.Machine.execPhp s
  | .oraImm v => Sys2Proof.Machine.execOraImm v s
  | .aslAcc => Sys2Proof.Machine.execAslAcc s
  | .undef0B => Sys2Proof.Machine.execUndef0B s
  | .nop0C a => Sys2Proof.Machine.execNop0C a s
  | .oraAbs a => Sys2Proof.Machine.execOraAbs a s
  | .aslAbs a => Sys2Proof.Machine.execAslAbs a s
  | .sloAbs a => Sys2Proof.Machine.execSloAbs a s
  | .bpl d => Sys2Proof.Machine.execBpl d s
  | .oraIzy b => Sys2Proof.Machine.execOraIzy b s
  | .undef12 => Sys2Proof.Machine.execUndef12 s
  | .sloIzy b => Sys2Proof.Machine.execSloIzy b s
  | .nop14 b => Sys2Proof.Machine.execNop14 b s
  | .oraZpx b => Sys2Proof.Machine.execOraZpx b s
  | .aslZpx b => Sys2Proof.Machine.execAslZpx b s
  | .sloZpx b => Sys2Proof.Machine.execSloZpx b s
  | .clc => Sys2Proof.Machine.execClc s
  | .oraAby a => Sys2Proof.Machine.execOraAby a s
  | .nop1A => Sys2Proof.Machine.execNop1A s
  | .sloAby a => Sys2Proof.Machine.execSloAby a s
  | .nop1C a => Sys2Proof.Machine.execNop1C a s
  | .oraAbx a => Sys2Proof.Machine.execOraAbx a s
  | .aslAbx a => Sys2Proof.Machine.execAslAbx a s
  | .sloAbx a => Sys2Proof.Machine.execSloAbx a s
  | .jsr lo => Sys2Proof.Machine.execJsr lo s
  | .andIzx b => Sys2Proof.Machine.execAndIzx b s
  | .undef22 => Sys2Proof.Machine.execUndef22 s
  | .rlaIzx b => Sys2Proof.Machine.execRlaIzx b s
  | .bitZp b => Sys2Proof.Machine.execBitZp b s
  | .andZp b => Sys2Proof.Machine.execAndZp b s
  | .rolZp b => Sys2Proof.Machine.execRolZp b s
  | .rlaZp b => Sys2Proof.Machine.execRlaZp b s
  | .plp => Sys2Proof.Machine.execPlp s
  | .andImm v => Sys2Proof.Machine.execAndImm v s
  | .rolAcc => Sys2Proof.Machine.execRolAcc s
  | .undef2B => Sys2Proof.Machine.execUndef2B s
  | .bitAbs a => Sys2Proof.Machine.execBitAbs a s
  | .andAbs a => Sys2Proof.Machine.execAndAbs a s
  | .rolAbs a => Sys2Proof.Machine.execRolAbs a s
  | .rlaAbs a => Sys2Proof.Machine.execRlaAbs a s
  | .bmi d => Sys2Proof.Machine.execBmi d s
  | .andIzy b => Sys2Proof.Machine.execAndIzy b s
  | .undef32 => Sys2Proof.Machine.execUndef32 s
  | .rlaIzy b => Sys2Proof.Machine.execRlaIzy b s
  | .nop34 b => Sys2Proof.Machine.execNop34 b s
  | .andZpx b => Sys2Proof.Machine.execAndZpx b s
  | .rolZpx b => Sys2Proof.Machine.execRolZpx b s
  | .rlaZpx b => Sys2Proof.Machine.execRlaZpx b s
  | .sec => Sys2Proof.Machine.execSec s
  | .andAby a => Sys2Proof.Machine.execAndAby a s
  | .nop3A => Sys2Proof.Machine.execNop3A s
  | .rlaAby a => Sys2Proof.Machine.execRlaAby a s
  | .nop3C a => Sys2Proof.Machine.execNop3C a s
  | .andAbx a => Sys2Proof.Machine.execAndAbx a s
  | .rolAbx a => Sys2Proof.Machine.execRolAbx a s
  | .rlaAbx a => Sys2Proof.Machine.execRlaAbx a s
  | .rti => Sys2Proof.Machine.execRti s
  | .eorIzx b => Sys2Proof.Machine.execEorIzx b s
  | .undef42 => Sys2Proof.Machine.execUndef42 s
  | .sreIzx b => Sys2Proof.Machine.execSreIzx b s
  | .nop44 b => Sys2Proof.Machine.execNop44 b s
  | .eorZp b => Sys2Proof.Machine.execEorZp b s
  | .lsrZp b => Sys2Proof.Machine.execLsrZp b s
  | .sreZp b => Sys2Proof.Machine.execSreZp b s
  | .pha => Sys2Proof.Machine.execPha s
  | .eorImm v => Sys2Proof.Machine.execEorImm v s
  | .lsrAcc => Sys2Proof.Machine.execLsrAcc s
  | .undef4B => Sys2Proof.Machine.execUndef4B s
  | .jmpAbs a => Sys2Proof.Machine.execJmpAbs a s
  | .eorAbs a => Sys2Proof.Machine.execEorAbs a s
  | .lsrAbs a => Sys2Proof.Machine.execLsrAbs a s
  | .sreAbs a => Sys2Proof.Machine.execSreAbs a s
  | .bvc d => Sys2Proof.Machine.execBvc d s
  | .eorIzy b => Sys2Proof.Machine.execEorIzy b s
  | .undef52 => Sys2Proof.Machine.execUndef52 s
  | .sreIzy b => Sys2Proof.Machine.execSreIzy b s
  | .nop54 b => Sys2Proof.Machine.execNop54 b s
  | .eorZpx b => Sys2Proof.Machine.execEorZpx b s
  | .lsrZpx b => Sys2Proof.Machine.execLsrZpx b s
  | .sreZpx b => Sys2Proof.Machine.execSreZpx b s
  | .cli => Sys2Proof.Machine.execCli s
  | .eorAby a => Sys2Proof.Machine.execEorAby a s
  | .nop5A => Sys2Proof.Machine.execNop5A s
  | .sreAby a => Sys2Proof.Machine.execSreAby a s
  | .nop5C a => Sys2Proof.Machine.execNop5C a s
  | .eorAbx a => Sys2Proof.Machine.execEorAbx a s
  | .lsrAbx a => Sys2Proof.Machine.execLsrAbx a s
  | .sreAbx a => Sys2Proof.Machine.execSreAbx a s
  | .rts => Sys2Proof.Machine.execRts s
  | .adcIzx b => Sys2Proof.Machine.execAdcIzx b s
  | .undef62 => Sys2Proof.Machine.execUndef62 s
  | .rraIzx b => Sys2Proof.Machine.execRraIzx b s
  | .nop64 b => Sys2Proof.Machine.execNop64 b s
  | .adcZp b => Sys2Proof.Machine.execAdcZp b s
  | .rorZp b => Sys2Proof.Machine.execRorZp b s
  | .rraZp b => Sys2Proof.Machine.execRraZp b s
  | .pla => Sys2Proof.Machine.execPla s
  | .adcImm v => Sys2Proof.Machine.execAdcImm v s
  | .rorAcc => Sys2Proof.Machine.execRorAcc s
  | .undef6B => Sys2Proof.Machine.execUndef6B s
  | .jmpInd a => Sys2Proof.Machine.execJmpInd a s
  | .adcAbs a => Sys2Proof.Machine.execAdcAbs a s
  | .rorAbs a => Sys2Proof.Machine.execRorAbs a s
  | .rraAbs a => Sys2Proof.Machine.execRraAbs a s
  | .bvs d => Sys2Proof.Machine.execBvs d s
  | .adcIzy b => Sys2Proof.Machine.execAdcIzy b s
  | .undef72 => Sys2Proof.Machine.execUndef72 s
  | .rraIzy b => Sys2Proof.Machine.execRraIzy b s
  | .nop74 b => Sys2Proof.Machine.execNop74 b s
  | .adcZpx b => Sys2Proof.Machine.execAdcZpx b s
  | .rorZpx b => Sys2Proof.Machine.execRorZpx b s
  | .rraZpx b => Sys2Proof.Machine.execRraZpx b s
  | .sei => Sys2Proof.Machine.execSei s
  | .adcAby a => Sys2Proof.Machine.execAdcAby a s
  | .nop7A => Sys2Proof.Machine.execNop7A s
  | .rraAby a => Sys2Proof.Machine.execRraAby a s
  | .nop7C a => Sys2Proof.Machine.execNop7C a s
  | .adcAbx a => Sys2Proof.Machine.execAdcAbx a s
  | .rorAbx a => Sys2Proof.Machine.execRorAbx a s
  | .rraAbx a => Sys2Proof.Machine.execRraAbx a s
  | .nop80 v => Sys2Proof.Machine.execNop80 v s
  | .staIzx b => Sys2Proof.Machine.execStaIzx b s
  | .nop82 v => Sys2Proof.Machine.execNop82 v s
  | .saxIzx b => Sys2Proof.Machine.execSaxIzx b s
  | .styZp b => Sys2Proof.Machine.execStyZp b s
  | .staZp b => Sys2Proof.Machine.execStaZp b s
  | .stxZp b => Sys2Proof.Machine.execStxZp b s
  | .saxZp b => Sys2Proof.Machine.execSaxZp b s
  | .dey => Sys2Proof.Machine.execDey s
  | .nop89 v => Sys2Proof.Machine.execNop89 v s
  | .txa => Sys2Proof.Machine.execTxa s
  | .undef8B => Sys2Proof.Machine.execUndef8B s
  | .styAbs a => Sys2Proof.Machine.execStyAbs a s
  | .staAbs a => Sys2Proof.Machine.execStaAbs a s
  | .stxAbs a => Sys2Proof.Machine.execStxAbs a s
  | .saxAbs a => Sys2Proof.Machine.execSaxAbs a s
  | .bcc d => Sys2Proof.Machine.execBcc d s
  | .staIzy b => Sys2Proof.Machine.execStaIzy b s
  | .undef92 => Sys2Proof.Machine.execUndef92 s
  | .undef93 => Sys2Proof.Machine.execUndef93 s
  | .styZpx b => Sys2Proof.Machine.execStyZpx b s
  | .staZpx b => Sys2Proof.Machine.execStaZpx b s
  | .stxZpy b => Sys2Proof.Machine.execStxZpy b s
  | .saxZpy b => Sys2Proof.Machine.execSaxZpy b s
  | .tya => Sys2Proof.Machine.execTya s
  | .staAby a => Sys2Proof.Machine.execStaAby a s
  | .txs => Sys2Proof.Machine.execTxs s
  | .undef9B => Sys2Proof.Machine.execUndef9B s
  | .undef9C => Sys2Proof.Machine.execUndef9C s
  | .staAbx a => Sys2Proof.Machine.execStaAbx a s
  | .undef9E => Sys2Proof.Machine.execUndef9E s
  | .undef9F => Sys2Proof.Machine.execUndef9F s
  | .ldyImm v => Sys2Proof.Machine.execLdyImm v s
  | .ldaIzx b => Sys2Proof.Machine.execLdaIzx b s
  | .ldxImm v => Sys2Proof.Machine.execLdxImm v s
  | .laxIzx b => Sys2Proof.Machine.execLaxIzx b s
  | .ldyZp b => Sys2Proof.Machine.execLdyZp b s
  | .ldaZp b => Sys2Proof.Machine.execLdaZp b s
  | .ldxZp b => Sys2Proof.Machine.execLdxZp b s
  | .laxZp b => Sys2Proof.Machine.execLaxZp b s
  | .tay => Sys2Proof.Machine.execTay s
  | .ldaImm v => Sys2Proof.Machine.execLdaImm v s
  | .tax => Sys2Proof.Machine.execTax s
  | .undefAB => Sys2Proof.Machine.execUndefAB s
  | .ldyAbs a => Sys2Proof.Machine.execLdyAbs a s
  | .ldaAbs a => Sys2Proof.Machine.execLdaAbs a s
  | .ldxAbs a => Sys2Proof.Machine.execLdxAbs a s
  | .laxAbs a => Sys2Proof.Machine.execLaxAbs a s
  | .bcs d => Sys2Proof.Machine.execBcs d s
  | .ldaIzy b => Sys2Proof.Machine.execLdaIzy b s
  | .undefB2 => Sys2Proof.Machine.execUndefB2 s
  | .laxIzy b => Sys2Proof.Machine.execLaxIzy b s
  | .ldyZpx b => Sys2Proof.Machine.execLdyZpx b s
  | .ldaZpx b => Sys2Proof.Machine.execLdaZpx b s
  | .ldxZpy b => Sys2Proof.Machine.execLdxZpy b s
  | .laxZpy b => Sys2Proof.Machine.execLaxZpy b s
  | .clv => Sys2Proof.Machine.execClv s
  | .ldaAby a => Sys2Proof.Machine.execLdaAby a s
  | .tsx => Sys2Proof.Machine.execTsx s
  | .undefBB => Sys2Proof.Machine.execUndefBB s
  | .ldyAbx a => Sys2Proof.Machine.execLdyAbx a s
  | .ldaAbx a => Sys2Proof.Machine.execLdaAbx a s
  | .ldxAby a => Sys2Proof.Machine.execLdxAby a s
  | .laxAby a => Sys2Proof.Machine.execLaxAby a s
  | .cpyImm v => Sys2Proof.Machine.execCpyImm v s
  | .cmpIzx b => Sys2Proof.Machine.execCmpIzx b s
  | .nopC2 v => Sys2Proof.Machine.execNopC2 v s
  | .dcpIzx b => Sys2Proof.Machine.execDcpIzx b s
  | .cpyZp b => Sys2Proof.Machine.execCpyZp b s
  | .cmpZp b => Sys2Proof.Machine.execCmpZp b s
  | .decZp b => Sys2Proof.Machine.execDecZp b s
  | .dcpZp b => Sys2Proof.Machine.execDcpZp b s
  | .iny => Sys2Proof.Machine.execIny s
  | .cmpImm v => Sys2Proof.Machine.execCmpImm v s
  | .dex => Sys2Proof.Machine.execDex s
  | .undefCB => Sys2Proof.Machine.execUndefCB s
  | .cpyAbs a => Sys2Proof.Machine.execCpyAbs a s
  | .cmpAbs a => Sys2Proof.Machine.execCmpAbs a s
  | .decAbs a => Sys2Proof.Machine.execDecAbs a s
  | .dcpAbs a => Sys2Proof.Machine.execDcpAbs a s
  | .bne d => Sys2Proof.Machine.execBne d s
  | .cmpIzy b => Sys2Proof.Machine.execCmpIzy b s
  | .undefD2 => Sys2Proof.Machine.execUndefD2 s
  | .dcpIzy b => Sys2Proof.Machine.execDcpIzy b s
  | .nopD4 b => Sys2Proof.Machine.execNopD4 b s
  | .cmpZpx b => Sys2Proof.Machine.execCmpZpx b s
  | .decZpx b => Sys2Proof.Machine.execDecZpx b s
  | .dcpZpx b => Sys2Proof.Machine.execDcpZpx b s
  | .cld => Sys2Proof.Machine.execCld s
  | .cmpAby a => Sys2Proof.Machine.execCmpAby a s
  | .nopDA => Sys2Proof.Machine.execNopDA s
  | .dcpAby a => Sys2Proof.Machine.execDcpAby a s
  | .nopDC a => Sys2Proof.Machine.execNopDC a s
  | .cmpAbx a => Sys2Proof.Machine.execCmpAbx a s
  | .decAbx a => Sys2Proof.Machine.execDecAbx a s
  | .dcpAbx a => Sys2Proof.Machine.execDcpAbx a s
  | .cpxImm v => Sys2Proof.Machine.execCpxImm v s
  | .sbcIzx b => Sys2Proof.Machine.execSbcIzx b s
  | .nopE2 v => Sys2Proof.Machine.execNopE2 v s
  | .isbIzx b => Sys2Proof.Machine.execIsbIzx b s
  | .cpxZp b => Sys2Proof.Machine.execCpxZp b s
  | .sbcZp b => Sys2Proof.Machine.execSbcZp b s
  | .incZp b => Sys2Proof.Machine.execIncZp b s
  | .isbZp b => Sys2Proof.Machine.execIsbZp b s
  | .inx => Sys2Proof.Machine.execInx s
  | .sbcImm v => Sys2Proof.Machine.execSbcImm v s
  | .nop => Sys2Proof.Machine.execNop s
  | .sbcImmEB v => Sys2Proof.Machine.execSbcImmEB v s
  | .cpxAbs a => Sys2Proof.Machine.execCpxAbs a s
  | .sbcAbs a => Sys2Proof.Machine.execSbcAbs a s
  | .incAbs a => Sys2Proof.Machine.execIncAbs a s
  | .isbAbs a => Sys2Proof.Machine.execIsbAbs a s
  | .beq d => Sys2Proof.Machine.execBeq d s
  | .sbcIzy b => Sys2Proof.Machine.execSbcIzy b s
  | .undefF2 => Sys2Proof.Machine.execUndefF2 s
  | .isbIzy b => Sys2Proof.Machine.execIsbIzy b s
  | .nopF4 b => Sys2Proof.Machine.execNopF4 b s
  | .sbcZpx b => Sys2Proof.Machine.execSbcZpx b s
  | .incZpx b => Sys2Proof.Machine.execIncZpx b s
  | .isbZpx b => Sys2Proof.Machine.execIsbZpx b s
  | .sed => Sys2Proof.Machine.execSed s
  | .sbcAby a => Sys2Proof.Machine.execSbcAby a s
  | .nopFA => Sys2Proof.Machine.execNopFA s
  | .isbAby a => Sys2Proof.Machine.execIsbAby a s
  | .nopFC a => Sys2Proof.Machine.execNopFC a s
  | .sbcAbx a => Sys2Proof.Machine.execSbcAbx a s
  | .incAbx a => Sys2Proof.Machine.execIncAbx a s
  | .isbAbx a => Sys2Proof.Machine.execIsbAbx a s

end Sys2Proof.Machine
end

