-- ==== Sys2Proof/Decode.lean ====
section
/-!
DEFINITION. Decode.lean: the decoder and the encoder (30_encoding.md). The opcode map stands as R135 prints it, one
list for each high nibble; an entry says how many operand bytes are fetched before the operation starts and which
instruction they make.
-/

namespace Sys2Proof

/-- An entry of the opcode map: with no operand byte, one, or two (low byte first) (R132, R133). -/
inductive Row where
  | f1 (i : Instr)
  | f2 (make : Byte → Instr)
  | f3 (make : Addr → Instr)

/-- Row 0x of the opcode map (R135). -/
def opcodeRow0 : List Row :=
  [ .f1 .brk, .f2 .oraIzx, .f1 .undef02, .f2 .sloIzx, .f2 .nop04, .f2 .oraZp, .f2 .aslZp, .f2 .sloZp, .f1 .php,
    .f2 .oraImm, .f1 .aslAcc, .f1 .undef0B, .f3 .nop0C, .f3 .oraAbs, .f3 .aslAbs, .f3 .sloAbs ]

/-- Row 1x of the opcode map (R135). -/
def opcodeRow1 : List Row :=
  [ .f2 .bpl, .f2 .oraIzy, .f1 .undef12, .f2 .sloIzy, .f2 .nop14, .f2 .oraZpx, .f2 .aslZpx, .f2 .sloZpx,
    .f1 .clc, .f3 .oraAby, .f1 .nop1A, .f3 .sloAby, .f3 .nop1C, .f3 .oraAbx, .f3 .aslAbx, .f3 .sloAbx ]

/-- Row 2x of the opcode map (R135). -/
def opcodeRow2 : List Row :=
  [ .f2 .jsr, .f2 .andIzx, .f1 .undef22, .f2 .rlaIzx, .f2 .bitZp, .f2 .andZp, .f2 .rolZp, .f2 .rlaZp, .f1 .plp,
    .f2 .andImm, .f1 .rolAcc, .f1 .undef2B, .f3 .bitAbs, .f3 .andAbs, .f3 .rolAbs, .f3 .rlaAbs ]

/-- Row 3x of the opcode map (R135). -/
def opcodeRow3 : List Row :=
  [ .f2 .bmi, .f2 .andIzy, .f1 .undef32, .f2 .rlaIzy, .f2 .nop34, .f2 .andZpx, .f2 .rolZpx, .f2 .rlaZpx,
    .f1 .sec, .f3 .andAby, .f1 .nop3A, .f3 .rlaAby, .f3 .nop3C, .f3 .andAbx, .f3 .rolAbx, .f3 .rlaAbx ]

/-- Row 4x of the opcode map (R135). -/
def opcodeRow4 : List Row :=
  [ .f1 .rti, .f2 .eorIzx, .f1 .undef42, .f2 .sreIzx, .f2 .nop44, .f2 .eorZp, .f2 .lsrZp, .f2 .sreZp, .f1 .pha,
    .f2 .eorImm, .f1 .lsrAcc, .f1 .undef4B, .f3 .jmpAbs, .f3 .eorAbs, .f3 .lsrAbs, .f3 .sreAbs ]

/-- Row 5x of the opcode map (R135). -/
def opcodeRow5 : List Row :=
  [ .f2 .bvc, .f2 .eorIzy, .f1 .undef52, .f2 .sreIzy, .f2 .nop54, .f2 .eorZpx, .f2 .lsrZpx, .f2 .sreZpx,
    .f1 .cli, .f3 .eorAby, .f1 .nop5A, .f3 .sreAby, .f3 .nop5C, .f3 .eorAbx, .f3 .lsrAbx, .f3 .sreAbx ]

/-- Row 6x of the opcode map (R135). -/
def opcodeRow6 : List Row :=
  [ .f1 .rts, .f2 .adcIzx, .f1 .undef62, .f2 .rraIzx, .f2 .nop64, .f2 .adcZp, .f2 .rorZp, .f2 .rraZp, .f1 .pla,
    .f2 .adcImm, .f1 .rorAcc, .f1 .undef6B, .f3 .jmpInd, .f3 .adcAbs, .f3 .rorAbs, .f3 .rraAbs ]

/-- Row 7x of the opcode map (R135). -/
def opcodeRow7 : List Row :=
  [ .f2 .bvs, .f2 .adcIzy, .f1 .undef72, .f2 .rraIzy, .f2 .nop74, .f2 .adcZpx, .f2 .rorZpx, .f2 .rraZpx,
    .f1 .sei, .f3 .adcAby, .f1 .nop7A, .f3 .rraAby, .f3 .nop7C, .f3 .adcAbx, .f3 .rorAbx, .f3 .rraAbx ]

/-- Row 8x of the opcode map (R135). -/
def opcodeRow8 : List Row :=
  [ .f2 .nop80, .f2 .staIzx, .f2 .nop82, .f2 .saxIzx, .f2 .styZp, .f2 .staZp, .f2 .stxZp, .f2 .saxZp, .f1 .dey,
    .f2 .nop89, .f1 .txa, .f1 .undef8B, .f3 .styAbs, .f3 .staAbs, .f3 .stxAbs, .f3 .saxAbs ]

/-- Row 9x of the opcode map (R135). -/
def opcodeRow9 : List Row :=
  [ .f2 .bcc, .f2 .staIzy, .f1 .undef92, .f1 .undef93, .f2 .styZpx, .f2 .staZpx, .f2 .stxZpy, .f2 .saxZpy,
    .f1 .tya, .f3 .staAby, .f1 .txs, .f1 .undef9B, .f1 .undef9C, .f3 .staAbx, .f1 .undef9E, .f1 .undef9F ]

/-- Row Ax of the opcode map (R135). -/
def opcodeRowA : List Row :=
  [ .f2 .ldyImm, .f2 .ldaIzx, .f2 .ldxImm, .f2 .laxIzx, .f2 .ldyZp, .f2 .ldaZp, .f2 .ldxZp, .f2 .laxZp,
    .f1 .tay, .f2 .ldaImm, .f1 .tax, .f1 .undefAB, .f3 .ldyAbs, .f3 .ldaAbs, .f3 .ldxAbs, .f3 .laxAbs ]

/-- Row Bx of the opcode map (R135). -/
def opcodeRowB : List Row :=
  [ .f2 .bcs, .f2 .ldaIzy, .f1 .undefB2, .f2 .laxIzy, .f2 .ldyZpx, .f2 .ldaZpx, .f2 .ldxZpy, .f2 .laxZpy,
    .f1 .clv, .f3 .ldaAby, .f1 .tsx, .f1 .undefBB, .f3 .ldyAbx, .f3 .ldaAbx, .f3 .ldxAby, .f3 .laxAby ]

/-- Row Cx of the opcode map (R135). -/
def opcodeRowC : List Row :=
  [ .f2 .cpyImm, .f2 .cmpIzx, .f2 .nopC2, .f2 .dcpIzx, .f2 .cpyZp, .f2 .cmpZp, .f2 .decZp, .f2 .dcpZp,
    .f1 .iny, .f2 .cmpImm, .f1 .dex, .f1 .undefCB, .f3 .cpyAbs, .f3 .cmpAbs, .f3 .decAbs, .f3 .dcpAbs ]

/-- Row Dx of the opcode map (R135). -/
def opcodeRowD : List Row :=
  [ .f2 .bne, .f2 .cmpIzy, .f1 .undefD2, .f2 .dcpIzy, .f2 .nopD4, .f2 .cmpZpx, .f2 .decZpx, .f2 .dcpZpx,
    .f1 .cld, .f3 .cmpAby, .f1 .nopDA, .f3 .dcpAby, .f3 .nopDC, .f3 .cmpAbx, .f3 .decAbx, .f3 .dcpAbx ]

/-- Row Ex of the opcode map (R135). -/
def opcodeRowE : List Row :=
  [ .f2 .cpxImm, .f2 .sbcIzx, .f2 .nopE2, .f2 .isbIzx, .f2 .cpxZp, .f2 .sbcZp, .f2 .incZp, .f2 .isbZp,
    .f1 .inx, .f2 .sbcImm, .f1 .nop, .f2 .sbcImmEB, .f3 .cpxAbs, .f3 .sbcAbs, .f3 .incAbs, .f3 .isbAbs ]

/-- Row Fx of the opcode map (R135). -/
def opcodeRowF : List Row :=
  [ .f2 .beq, .f2 .sbcIzy, .f1 .undefF2, .f2 .isbIzy, .f2 .nopF4, .f2 .sbcZpx, .f2 .incZpx, .f2 .isbZpx,
    .f1 .sed, .f3 .sbcAby, .f1 .nopFA, .f3 .isbAby, .f3 .nopFC, .f3 .sbcAbx, .f3 .incAbx, .f3 .isbAbx ]

/-- The complete map, by the opcode's high nibble (R135). -/
def opcodeMap : List (List Row) :=
  [opcodeRow0, opcodeRow1, opcodeRow2, opcodeRow3, opcodeRow4, opcodeRow5, opcodeRow6, opcodeRow7] ++
  [opcodeRow8, opcodeRow9, opcodeRowA, opcodeRowB, opcodeRowC, opcodeRowD, opcodeRowE, opcodeRowF]

/-- The entry of an opcode byte. Every byte has one (R131), so the default is never taken (`Tests.test_opcode_map_is_complete`). -/
def rowOf (op : Byte) : Row :=
  (opcodeMap.getD (op.toNat / 16) []).getD (op.toNat % 16) (.f1 .nop)

/-- Why a list of bytes holds no instruction. No opcode byte is refused (R131): only missing bytes are. -/
inductive DecodeError where
  /-- There is no opcode byte. -/
  | noOpcode
  /-- The operand bytes of the opcode `op` are not all there. -/
  | missingOperand (op : Byte)
  deriving DecidableEq, Repr

/-- Decode the instruction at the front of a list of bytes; the answer holds the bytes left over. -/
def decode : List Byte → Except DecodeError (Instr × List Byte)
  | [] => .error .noOpcode
  | op :: rest =>
    match rowOf op, rest with
    | .f1 i, rest => .ok (i, rest)
    | .f2 make, b :: rest => .ok (make b, rest)
    | .f3 make, b1 :: b2 :: rest => .ok (make (word b2 b1), rest)
    | .f2 _, [] => .error (.missingOperand op)
    | .f3 _, [_] => .error (.missingOperand op)
    | .f3 _, [] => .error (.missingOperand op)

/-- The bytes of an instruction that are fetched before its operation starts (R132): all of them, but for JSR, whose
third byte is read by its own operation (R362), and BRK, whose padding byte is (R400). -/
def encode : Instr → List Byte
  | .brk => [0x00#8]
  | .oraIzx b => [0x01#8, b]
  | .undef02 => [0x02#8]
  | .sloIzx b => [0x03#8, b]
  | .nop04 b => [0x04#8, b]
  | .oraZp b => [0x05#8, b]
  | .aslZp b => [0x06#8, b]
  | .sloZp b => [0x07#8, b]
  | .php => [0x08#8]
  | .oraImm v => [0x09#8, v]
  | .aslAcc => [0x0A#8]
  | .undef0B => [0x0B#8]
  | .nop0C a => [0x0C#8, lo8 a, hi8 a]
  | .oraAbs a => [0x0D#8, lo8 a, hi8 a]
  | .aslAbs a => [0x0E#8, lo8 a, hi8 a]
  | .sloAbs a => [0x0F#8, lo8 a, hi8 a]
  | .bpl d => [0x10#8, d]
  | .oraIzy b => [0x11#8, b]
  | .undef12 => [0x12#8]
  | .sloIzy b => [0x13#8, b]
  | .nop14 b => [0x14#8, b]
  | .oraZpx b => [0x15#8, b]
  | .aslZpx b => [0x16#8, b]
  | .sloZpx b => [0x17#8, b]
  | .clc => [0x18#8]
  | .oraAby a => [0x19#8, lo8 a, hi8 a]
  | .nop1A => [0x1A#8]
  | .sloAby a => [0x1B#8, lo8 a, hi8 a]
  | .nop1C a => [0x1C#8, lo8 a, hi8 a]
  | .oraAbx a => [0x1D#8, lo8 a, hi8 a]
  | .aslAbx a => [0x1E#8, lo8 a, hi8 a]
  | .sloAbx a => [0x1F#8, lo8 a, hi8 a]
  | .jsr lo => [0x20#8, lo]
  | .andIzx b => [0x21#8, b]
  | .undef22 => [0x22#8]
  | .rlaIzx b => [0x23#8, b]
  | .bitZp b => [0x24#8, b]
  | .andZp b => [0x25#8, b]
  | .rolZp b => [0x26#8, b]
  | .rlaZp b => [0x27#8, b]
  | .plp => [0x28#8]
  | .andImm v => [0x29#8, v]
  | .rolAcc => [0x2A#8]
  | .undef2B => [0x2B#8]
  | .bitAbs a => [0x2C#8, lo8 a, hi8 a]
  | .andAbs a => [0x2D#8, lo8 a, hi8 a]
  | .rolAbs a => [0x2E#8, lo8 a, hi8 a]
  | .rlaAbs a => [0x2F#8, lo8 a, hi8 a]
  | .bmi d => [0x30#8, d]
  | .andIzy b => [0x31#8, b]
  | .undef32 => [0x32#8]
  | .rlaIzy b => [0x33#8, b]
  | .nop34 b => [0x34#8, b]
  | .andZpx b => [0x35#8, b]
  | .rolZpx b => [0x36#8, b]
  | .rlaZpx b => [0x37#8, b]
  | .sec => [0x38#8]
  | .andAby a => [0x39#8, lo8 a, hi8 a]
  | .nop3A => [0x3A#8]
  | .rlaAby a => [0x3B#8, lo8 a, hi8 a]
  | .nop3C a => [0x3C#8, lo8 a, hi8 a]
  | .andAbx a => [0x3D#8, lo8 a, hi8 a]
  | .rolAbx a => [0x3E#8, lo8 a, hi8 a]
  | .rlaAbx a => [0x3F#8, lo8 a, hi8 a]
  | .rti => [0x40#8]
  | .eorIzx b => [0x41#8, b]
  | .undef42 => [0x42#8]
  | .sreIzx b => [0x43#8, b]
  | .nop44 b => [0x44#8, b]
  | .eorZp b => [0x45#8, b]
  | .lsrZp b => [0x46#8, b]
  | .sreZp b => [0x47#8, b]
  | .pha => [0x48#8]
  | .eorImm v => [0x49#8, v]
  | .lsrAcc => [0x4A#8]
  | .undef4B => [0x4B#8]
  | .jmpAbs a => [0x4C#8, lo8 a, hi8 a]
  | .eorAbs a => [0x4D#8, lo8 a, hi8 a]
  | .lsrAbs a => [0x4E#8, lo8 a, hi8 a]
  | .sreAbs a => [0x4F#8, lo8 a, hi8 a]
  | .bvc d => [0x50#8, d]
  | .eorIzy b => [0x51#8, b]
  | .undef52 => [0x52#8]
  | .sreIzy b => [0x53#8, b]
  | .nop54 b => [0x54#8, b]
  | .eorZpx b => [0x55#8, b]
  | .lsrZpx b => [0x56#8, b]
  | .sreZpx b => [0x57#8, b]
  | .cli => [0x58#8]
  | .eorAby a => [0x59#8, lo8 a, hi8 a]
  | .nop5A => [0x5A#8]
  | .sreAby a => [0x5B#8, lo8 a, hi8 a]
  | .nop5C a => [0x5C#8, lo8 a, hi8 a]
  | .eorAbx a => [0x5D#8, lo8 a, hi8 a]
  | .lsrAbx a => [0x5E#8, lo8 a, hi8 a]
  | .sreAbx a => [0x5F#8, lo8 a, hi8 a]
  | .rts => [0x60#8]
  | .adcIzx b => [0x61#8, b]
  | .undef62 => [0x62#8]
  | .rraIzx b => [0x63#8, b]
  | .nop64 b => [0x64#8, b]
  | .adcZp b => [0x65#8, b]
  | .rorZp b => [0x66#8, b]
  | .rraZp b => [0x67#8, b]
  | .pla => [0x68#8]
  | .adcImm v => [0x69#8, v]
  | .rorAcc => [0x6A#8]
  | .undef6B => [0x6B#8]
  | .jmpInd a => [0x6C#8, lo8 a, hi8 a]
  | .adcAbs a => [0x6D#8, lo8 a, hi8 a]
  | .rorAbs a => [0x6E#8, lo8 a, hi8 a]
  | .rraAbs a => [0x6F#8, lo8 a, hi8 a]
  | .bvs d => [0x70#8, d]
  | .adcIzy b => [0x71#8, b]
  | .undef72 => [0x72#8]
  | .rraIzy b => [0x73#8, b]
  | .nop74 b => [0x74#8, b]
  | .adcZpx b => [0x75#8, b]
  | .rorZpx b => [0x76#8, b]
  | .rraZpx b => [0x77#8, b]
  | .sei => [0x78#8]
  | .adcAby a => [0x79#8, lo8 a, hi8 a]
  | .nop7A => [0x7A#8]
  | .rraAby a => [0x7B#8, lo8 a, hi8 a]
  | .nop7C a => [0x7C#8, lo8 a, hi8 a]
  | .adcAbx a => [0x7D#8, lo8 a, hi8 a]
  | .rorAbx a => [0x7E#8, lo8 a, hi8 a]
  | .rraAbx a => [0x7F#8, lo8 a, hi8 a]
  | .nop80 v => [0x80#8, v]
  | .staIzx b => [0x81#8, b]
  | .nop82 v => [0x82#8, v]
  | .saxIzx b => [0x83#8, b]
  | .styZp b => [0x84#8, b]
  | .staZp b => [0x85#8, b]
  | .stxZp b => [0x86#8, b]
  | .saxZp b => [0x87#8, b]
  | .dey => [0x88#8]
  | .nop89 v => [0x89#8, v]
  | .txa => [0x8A#8]
  | .undef8B => [0x8B#8]
  | .styAbs a => [0x8C#8, lo8 a, hi8 a]
  | .staAbs a => [0x8D#8, lo8 a, hi8 a]
  | .stxAbs a => [0x8E#8, lo8 a, hi8 a]
  | .saxAbs a => [0x8F#8, lo8 a, hi8 a]
  | .bcc d => [0x90#8, d]
  | .staIzy b => [0x91#8, b]
  | .undef92 => [0x92#8]
  | .undef93 => [0x93#8]
  | .styZpx b => [0x94#8, b]
  | .staZpx b => [0x95#8, b]
  | .stxZpy b => [0x96#8, b]
  | .saxZpy b => [0x97#8, b]
  | .tya => [0x98#8]
  | .staAby a => [0x99#8, lo8 a, hi8 a]
  | .txs => [0x9A#8]
  | .undef9B => [0x9B#8]
  | .undef9C => [0x9C#8]
  | .staAbx a => [0x9D#8, lo8 a, hi8 a]
  | .undef9E => [0x9E#8]
  | .undef9F => [0x9F#8]
  | .ldyImm v => [0xA0#8, v]
  | .ldaIzx b => [0xA1#8, b]
  | .ldxImm v => [0xA2#8, v]
  | .laxIzx b => [0xA3#8, b]
  | .ldyZp b => [0xA4#8, b]
  | .ldaZp b => [0xA5#8, b]
  | .ldxZp b => [0xA6#8, b]
  | .laxZp b => [0xA7#8, b]
  | .tay => [0xA8#8]
  | .ldaImm v => [0xA9#8, v]
  | .tax => [0xAA#8]
  | .undefAB => [0xAB#8]
  | .ldyAbs a => [0xAC#8, lo8 a, hi8 a]
  | .ldaAbs a => [0xAD#8, lo8 a, hi8 a]
  | .ldxAbs a => [0xAE#8, lo8 a, hi8 a]
  | .laxAbs a => [0xAF#8, lo8 a, hi8 a]
  | .bcs d => [0xB0#8, d]
  | .ldaIzy b => [0xB1#8, b]
  | .undefB2 => [0xB2#8]
  | .laxIzy b => [0xB3#8, b]
  | .ldyZpx b => [0xB4#8, b]
  | .ldaZpx b => [0xB5#8, b]
  | .ldxZpy b => [0xB6#8, b]
  | .laxZpy b => [0xB7#8, b]
  | .clv => [0xB8#8]
  | .ldaAby a => [0xB9#8, lo8 a, hi8 a]
  | .tsx => [0xBA#8]
  | .undefBB => [0xBB#8]
  | .ldyAbx a => [0xBC#8, lo8 a, hi8 a]
  | .ldaAbx a => [0xBD#8, lo8 a, hi8 a]
  | .ldxAby a => [0xBE#8, lo8 a, hi8 a]
  | .laxAby a => [0xBF#8, lo8 a, hi8 a]
  | .cpyImm v => [0xC0#8, v]
  | .cmpIzx b => [0xC1#8, b]
  | .nopC2 v => [0xC2#8, v]
  | .dcpIzx b => [0xC3#8, b]
  | .cpyZp b => [0xC4#8, b]
  | .cmpZp b => [0xC5#8, b]
  | .decZp b => [0xC6#8, b]
  | .dcpZp b => [0xC7#8, b]
  | .iny => [0xC8#8]
  | .cmpImm v => [0xC9#8, v]
  | .dex => [0xCA#8]
  | .undefCB => [0xCB#8]
  | .cpyAbs a => [0xCC#8, lo8 a, hi8 a]
  | .cmpAbs a => [0xCD#8, lo8 a, hi8 a]
  | .decAbs a => [0xCE#8, lo8 a, hi8 a]
  | .dcpAbs a => [0xCF#8, lo8 a, hi8 a]
  | .bne d => [0xD0#8, d]
  | .cmpIzy b => [0xD1#8, b]
  | .undefD2 => [0xD2#8]
  | .dcpIzy b => [0xD3#8, b]
  | .nopD4 b => [0xD4#8, b]
  | .cmpZpx b => [0xD5#8, b]
  | .decZpx b => [0xD6#8, b]
  | .dcpZpx b => [0xD7#8, b]
  | .cld => [0xD8#8]
  | .cmpAby a => [0xD9#8, lo8 a, hi8 a]
  | .nopDA => [0xDA#8]
  | .dcpAby a => [0xDB#8, lo8 a, hi8 a]
  | .nopDC a => [0xDC#8, lo8 a, hi8 a]
  | .cmpAbx a => [0xDD#8, lo8 a, hi8 a]
  | .decAbx a => [0xDE#8, lo8 a, hi8 a]
  | .dcpAbx a => [0xDF#8, lo8 a, hi8 a]
  | .cpxImm v => [0xE0#8, v]
  | .sbcIzx b => [0xE1#8, b]
  | .nopE2 v => [0xE2#8, v]
  | .isbIzx b => [0xE3#8, b]
  | .cpxZp b => [0xE4#8, b]
  | .sbcZp b => [0xE5#8, b]
  | .incZp b => [0xE6#8, b]
  | .isbZp b => [0xE7#8, b]
  | .inx => [0xE8#8]
  | .sbcImm v => [0xE9#8, v]
  | .nop => [0xEA#8]
  | .sbcImmEB v => [0xEB#8, v]
  | .cpxAbs a => [0xEC#8, lo8 a, hi8 a]
  | .sbcAbs a => [0xED#8, lo8 a, hi8 a]
  | .incAbs a => [0xEE#8, lo8 a, hi8 a]
  | .isbAbs a => [0xEF#8, lo8 a, hi8 a]
  | .beq d => [0xF0#8, d]
  | .sbcIzy b => [0xF1#8, b]
  | .undefF2 => [0xF2#8]
  | .isbIzy b => [0xF3#8, b]
  | .nopF4 b => [0xF4#8, b]
  | .sbcZpx b => [0xF5#8, b]
  | .incZpx b => [0xF6#8, b]
  | .isbZpx b => [0xF7#8, b]
  | .sed => [0xF8#8]
  | .sbcAby a => [0xF9#8, lo8 a, hi8 a]
  | .nopFA => [0xFA#8]
  | .isbAby a => [0xFB#8, lo8 a, hi8 a]
  | .nopFC a => [0xFC#8, lo8 a, hi8 a]
  | .sbcAbx a => [0xFD#8, lo8 a, hi8 a]
  | .incAbx a => [0xFE#8, lo8 a, hi8 a]
  | .isbAbx a => [0xFF#8, lo8 a, hi8 a]

/-- The addressing modes of row 0x of the opcode map (R135). -/
def modeRow0 : List Mode :=
  [.impl, .izx, .impl, .izx, .zp, .zp, .zp, .zp, .impl, .imm, .acc, .impl, .abs, .abs, .abs, .abs]

/-- The addressing modes of row 1x of the opcode map (R135). -/
def modeRow1 : List Mode :=
  [.rel, .izy, .impl, .izy, .zpx, .zpx, .zpx, .zpx, .impl, .aby, .impl, .aby, .abx, .abx, .abx, .abx]

/-- The addressing modes of row 2x of the opcode map (R135). -/
def modeRow2 : List Mode :=
  [.abs, .izx, .impl, .izx, .zp, .zp, .zp, .zp, .impl, .imm, .acc, .impl, .abs, .abs, .abs, .abs]

/-- The addressing modes of row 3x of the opcode map (R135). -/
def modeRow3 : List Mode :=
  [.rel, .izy, .impl, .izy, .zpx, .zpx, .zpx, .zpx, .impl, .aby, .impl, .aby, .abx, .abx, .abx, .abx]

/-- The addressing modes of row 4x of the opcode map (R135). -/
def modeRow4 : List Mode :=
  [.impl, .izx, .impl, .izx, .zp, .zp, .zp, .zp, .impl, .imm, .acc, .impl, .abs, .abs, .abs, .abs]

/-- The addressing modes of row 5x of the opcode map (R135). -/
def modeRow5 : List Mode :=
  [.rel, .izy, .impl, .izy, .zpx, .zpx, .zpx, .zpx, .impl, .aby, .impl, .aby, .abx, .abx, .abx, .abx]

/-- The addressing modes of row 6x of the opcode map (R135). -/
def modeRow6 : List Mode :=
  [.impl, .izx, .impl, .izx, .zp, .zp, .zp, .zp, .impl, .imm, .acc, .impl, .ind, .abs, .abs, .abs]

/-- The addressing modes of row 7x of the opcode map (R135). -/
def modeRow7 : List Mode :=
  [.rel, .izy, .impl, .izy, .zpx, .zpx, .zpx, .zpx, .impl, .aby, .impl, .aby, .abx, .abx, .abx, .abx]

/-- The addressing modes of row 8x of the opcode map (R135). -/
def modeRow8 : List Mode :=
  [.imm, .izx, .imm, .izx, .zp, .zp, .zp, .zp, .impl, .imm, .impl, .impl, .abs, .abs, .abs, .abs]

/-- The addressing modes of row 9x of the opcode map (R135). -/
def modeRow9 : List Mode :=
  [.rel, .izy, .impl, .impl, .zpx, .zpx, .zpy, .zpy, .impl, .aby, .impl, .impl, .impl, .abx, .impl, .impl]

/-- The addressing modes of row Ax of the opcode map (R135). -/
def modeRowA : List Mode :=
  [.imm, .izx, .imm, .izx, .zp, .zp, .zp, .zp, .impl, .imm, .impl, .impl, .abs, .abs, .abs, .abs]

/-- The addressing modes of row Bx of the opcode map (R135). -/
def modeRowB : List Mode :=
  [.rel, .izy, .impl, .izy, .zpx, .zpx, .zpy, .zpy, .impl, .aby, .impl, .impl, .abx, .abx, .aby, .aby]

/-- The addressing modes of row Cx of the opcode map (R135). -/
def modeRowC : List Mode :=
  [.imm, .izx, .imm, .izx, .zp, .zp, .zp, .zp, .impl, .imm, .impl, .impl, .abs, .abs, .abs, .abs]

/-- The addressing modes of row Dx of the opcode map (R135). -/
def modeRowD : List Mode :=
  [.rel, .izy, .impl, .izy, .zpx, .zpx, .zpx, .zpx, .impl, .aby, .impl, .aby, .abx, .abx, .abx, .abx]

/-- The addressing modes of row Ex of the opcode map (R135). -/
def modeRowE : List Mode :=
  [.imm, .izx, .imm, .izx, .zp, .zp, .zp, .zp, .impl, .imm, .impl, .imm, .abs, .abs, .abs, .abs]

/-- The addressing modes of row Fx of the opcode map (R135). -/
def modeRowF : List Mode :=
  [.rel, .izy, .impl, .izy, .zpx, .zpx, .zpx, .zpx, .impl, .aby, .impl, .aby, .abx, .abx, .abx, .abx]

/-- The addressing modes of the opcode map, by the opcode's high nibble (R135). -/
def modeMap : List (List Mode) :=
  [modeRow0, modeRow1, modeRow2, modeRow3, modeRow4, modeRow5, modeRow6, modeRow7] ++
  [modeRow8, modeRow9, modeRowA, modeRowB, modeRowC, modeRowD, modeRowE, modeRowF]

/-- The addressing mode of an opcode byte (R135). -/
def modeOf (op : Byte) : Mode :=
  (modeMap.getD (op.toNat / 16) []).getD (op.toNat % 16) .impl

/-- The length of the instruction an opcode byte begins (R140). -/
def lengthOf (op : Byte) : Nat := (modeOf op).length

/-- The three bytes from the lowest address on of an instruction whose bits are `w`, bit 0 the least significant bit of
the first byte, and whose bits from `nbits` on are 0. -/
def tableBytes (nbits w : Nat) : List Byte :=
  let w := w % 2 ^ nbits
  [BitVec.ofNat 8 w, BitVec.ofNat 8 (w / 256), BitVec.ofNat 8 (w / 65536)]

/-- What the decoder reads from a word numbered as spec/opcode_table.json numbers its bits. -/
def decodeTableWord (nbits w : Nat) : Option Instr :=
  match decode (tableBytes nbits w) with
  | .ok (i, _) => some i
  | .error _ => none

end Sys2Proof
end

