-- ==== Sys2Proof/Machine/Fetch.lean ====
section
/-!
DEFINITION. Machine/Fetch.lean: fetching an instruction's bytes (30_encoding.md R131), and placing bytes where the
next fetch reads them. Every mode fetches its operand bytes in the ticks right after the opcode's (R184 to R197), so
fetching them here keeps each access on its tick; JSR's high byte and BRK's padding byte are read by their own
operations (R362, R400).
-/

namespace Sys2Proof.Machine

/-- Fetch one byte: a read at the pc, then the pc advances (R131). -/
def fetchByte (s : State) : Byte × State :=
  let (b, s) := memRead s.pc s
  (b, s.setPc (s.pc + 1#16))

/-- Fetch an instruction: the opcode, and the operand bytes its row of the opcode map has (R131, R135). -/
def fetchInstr (s : State) : Instr × State :=
  let (op, s) := fetchByte s
  match rowOf op with
  | .f1 i => (i, s)
  | .f2 make =>
    let (b, s) := fetchByte s
    (make b, s)
  | .f3 make =>
    let (b1, s) := fetchByte s
    let (b2, s) := fetchByte s
    (make (word b2 b1), s)

/-- The bytes a fetch at the pc of `s` reads before its operation starts: the opcode, then as many operand bytes as its
row has; each with the side effects of the reads before it. -/
def fetchedBytes (s : State) : List Byte :=
  let (op, s1) := fetchByte s
  match rowOf op with
  | .f1 _ => [op]
  | .f2 _ => [op, (fetchByte s1).1]
  | .f3 _ => [op, (fetchByte s1).1, (fetchByte (fetchByte s1).2).1]

/-- Whether an address is one where a byte can be placed: work RAM, PRG-RAM or PRG ROM. -/
def placeable (a : Addr) : Bool :=
  match targetOf a with
  | .ram _ | .prgRam _ | .prgRom => true
  | .ppu _ | .apu | .dma | .controller _ | .undriven => false

/-- Place a byte at an address from outside the machine, with no tick: in RAM, in PRG-RAM, or in the PRG ROM image
where the mapper now reads that address. -/
def placeByte (s : State) (a : Addr) (b : Byte) : State :=
  match targetOf a with
  | .ram k => s.ramWrite k b
  | .prgRam k => s.setMapper (s.mapper.prgRamWrite k b)
  | .prgRom =>
    s.setMapper { s.mapper with prg := Memory.write (some 0#8) s.mapper.prg (s.mapper.prgOffset a) b }
  | .ppu _ | .apu | .dma | .controller _ | .undriven => s

/-- Where the next instruction's three bytes can be placed: at the pc, or at 0x0200 when one of them falls where no
byte can be. -/
def placeAt (s : State) : Addr :=
  if placeable s.pc && placeable (s.pc + 1#16) && placeable (s.pc + 2#16) then s.pc else 0x0200#16

/-- The state whose next boundary fetches the bytes: they are placed at the pc, a cartridge counts as loaded, and no
interrupt stands before the fetch (notes 12). -/
def placeInstr (s : State) (bytes : List Byte) : State :=
  let a := placeAt s
  let s := { s with
    pc := a
    cartLoaded := true
    nmiPending := false
    irqLine := s.irqLine && s.p.i }
  placeByte (placeByte (placeByte s a (bytes.getD 0 0#8)) (a + 1#16) (bytes.getD 1 0#8)) (a + 2#16)
    (bytes.getD 2 0#8)

end Sys2Proof.Machine
end

