-- ==== Sys2Proof/Machine/Boundary.lean ====
section
/-!
DEFINITION. Machine/Boundary.lean: the body of run_frame's loop (60_exceptions.md R462, R465, R468).
-/

namespace Sys2Proof.Machine

/-- TOTAL_CYCLES, the ticks run_frame adds (R7, R470). -/
def totalCycles : Int := 29781

/-- Fetch an instruction and run it (R131, R462). An opcode that UNOFFICIAL_SET leaves out is undefined: after the
fetch of its one byte it runs as R440 and R441 say (R138, R420). DESIGN CHOICE, notes 8: the set is looked at here. -/
def runInstr (s : State) : Result :=
  let (op, s') := fetchByte s
  if s.params.removes op then undefinedOpcode op s' else exec (fetchInstr s).1 (fetchInstr s).2

/-- An IRQ is entered at this boundary when no NMI is (R462, R464). -/
def State.irqDue (s : State) : Bool := s.irqLine && !s.p.i

/-- One iteration of run_frame's loop: an NMI entry, or an IRQ entry, or one instruction (R462, R468). -/
def boundary (s : State) : Result :=
  if s.nmiPending then .next (interrupt .nmi (s.setNmi false))
  else if s.irqDue then .next (interrupt .irq s)
  else runInstr s

/-- The state in which the next iteration runs (R462, R470). When the last budget is spent, run_frame has returned and
the host calls it again, as often as it takes for the counter to be positive: a call that leaves it at zero or below
returns at once. DESIGN CHOICE, notes 10. -/
def State.opened (s : State) : State :=
  if 0 < s.remainingCycles then s else s.addCycles (totalCycles * (-s.remainingCycles / totalCycles + 1))

end Sys2Proof.Machine
end

