-- ==== Sys2Proof/Machine/Step.lean ====
section
/-! DEFINITION. Machine/Step.lean: one step of the machine: one iteration of run_frame's loop, opening the next frame's
budget when the last is spent (60_exceptions.md R462; notes 10). -/

namespace Sys2Proof.Machine

/-- One step. With no cartridge loaded run_frame is refused (R490). -/
def step (s : State) : Host.Outcome State Fault Refusal :=
  if s.cartLoaded then boundary s.opened else .refused .noCartridge

/-- `s` with the instruction whose bits are `w` placed where `step` fetches its next instruction (notes 12). -/
def State.withFetchWord (s : State) (nbits w : Nat) : State := placeInstr s (tableBytes nbits w)

end Sys2Proof.Machine
end

