-- ==== Sys2Proof/Machine/Reset.lean ====
section
/-!
DEFINITION. Machine/Reset.lean: the internal reset, power() and reset() (70_reset_and_hazards.md R670 to R672).
-/

namespace Sys2Proof.Machine

/-- `InternalReset()` (R672). -/
def internalReset (s : State) : State :=
  let s := tick (tick s)
  let s := tick s
  let s := s.setSp (s.sp - 1#8)
  let s := tick s
  let s := s.setSp (s.sp - 1#8)
  let s := tick s
  let s := s.setSp (s.sp - 1#8)
  let s := s.setP (s.p.setI true)
  let (target, s) := read16 0xFFFC#16 0xFFFD#16 s
  s.setPc target

/-- The register, RAM and PPU values power() sets before its internal reset (R670). -/
def State.poweredOn (s : State) : State :=
  { s with
    a := 0#8
    x := 0#8
    y := 0#8
    sp := 0#8
    p := { c := false, z := false, i := false, d := false, v := false, n := false }
    ram := []
    nmiPending := false
    irqLine := false
    remainingCycles := 0
    ppu := Ppu.powerOn s.draws
    draws := s.draws + 1 }

/-- `power()`: refused with no cartridge, else the cold start (R670). -/
def power (s : State) : Result :=
  if s.cartLoaded then .next (internalReset s.poweredOn) else .refused .noCartridge

/-- `reset()`, the warm reset (R671). DESIGN CHOICE, notes 16: with no cartridge loaded it runs too, over the mapper
record that stands. DEDUCED, notes 17: its seven ticks have every effect R672 gives them, so one may latch an NMI
or change secondary OAM or the framebuffer, although R673's table calls these 0 or unchanged. -/
def warmReset (s : State) : State := internalReset (s.setNmi false)

end Sys2Proof.Machine
end

