-- ==== Sys2Proof/Machine/Run.lean ====
section
/-!
DEFINITION. Machine/Run.lean: the host's calls load, is_loaded and run_frame (60_exceptions.md R462, R490).
-/

namespace Sys2Proof.Machine

/-- run_frame's loop: iterations while the counter is positive. `n` bounds their number; every iteration takes at least
two ticks, so the counter itself is bound enough (R462, R470). -/
def frameLoop : Nat → State → Result
  | 0, s => .next s
  | n + 1, s =>
    if 0 < s.remainingCycles then
      match boundary s with
      | .next s' => frameLoop n s'
      | .fault f => .fault f
      | .refused r => .refused r
    else .next s

/-- `run_frame()` (R462), refused with no cartridge (R490). -/
def runFrame (s : State) : Result :=
  if s.cartLoaded then
    let s := s.addCycles totalCycles
    frameLoop s.remainingCycles.toNat s
  else .refused .noCartridge

/-- `is_loaded()` (R490). -/
def isLoaded (s : State) : Bool := s.cartLoaded

/-- `load(path)` with the bytes of the file, or none when it cannot be read: the mapper state is built, or the load is
refused and nothing is (R490, R660, R661). -/
def load (file : Option (List Byte)) (s : State) : Result :=
  match loadImage file with
  | .ok m => .next { s with mapper := m, cartLoaded := true }
  | .error e => .refused (.fatalLoad e)

/-- A run of `n` frames from a loaded cartridge: power(), then `n` calls of run_frame (R492). -/
def runFrames (s : State) : Nat → Result
  | 0 => power s
  | n + 1 =>
    match runFrames s n with
    | .next s' => runFrame s'
    | .fault f => .fault f
    | .refused r => .refused r

end Sys2Proof.Machine
end

