-- ==== Sys2Proof/Safety.lean ====
section
/-!
DEFINITION. Safety.lean: the terms claims use: the invariant of the machine's data, a byte of memory seen from the CPU
without an access, and what counts as a safe step.
-/

namespace Sys2Proof.Machine

/-- No listed palette index is one of the four that alias another (R552). -/
def paletteUnaliased (m : Memory ColourIndex) : Bool :=
  m.all (fun e => decide (e.1 ≠ 0x10 ∧ e.1 ≠ 0x14 ∧ e.1 ≠ 0x18 ∧ e.1 ≠ 0x1C))

/-- The PPU's invariants (R521): the position is in range, the counts are at most eight, there are eight slots, and
every memory is in canonical form with its indexes in range. -/
def Ppu.inv (p : Ppu) : Bool :=
  decide (p.scanline ≤ 261) && decide (p.dot ≤ 340) && decide (p.secCount ≤ 8) && decide (p.spCount ≤ 8) &&
    decide (p.slots.length = 8) && Memory.wf none 256 p.oam && Memory.wf none 32 p.sec &&
    Memory.wf none 2048 p.ciram && Memory.wf none 32 p.palette && paletteUnaliased p.palette && p.fb.wf

/-- The mapper's invariants (R620): sizes of at least one unit, a CHR RAM of one unit, a serial count of at most four,
and every memory in canonical form with its indexes in range. -/
def Mapper.inv (m : Mapper) : Bool :=
  decide (1 ≤ m.prgUnits) && decide (1 ≤ m.chrUnits) && decide (1 ≤ m.prgRamUnits) &&
    (!m.chrIsRam || decide (m.chrUnits = 1)) && decide (m.count ≤ 4) &&
    Memory.wf (some 0#8) (16384 * m.prgUnits) m.prg && Memory.wf m.chrDefault (8192 * m.chrUnits) m.chr &&
    Memory.wf none 8192 m.prgRam

/-- The invariant of the machine's data, which every step keeps. -/
def State.inv (s : State) : Bool :=
  Memory.wf (some s.params.ramPoison) 2048 s.ram && s.ppu.inv && s.mapper.inv

/-- The byte of memory a CPU address names, seen without an access: work RAM, PRG-RAM or PRG ROM as the mapper now maps
it; none where the address names a device or nothing (R90, R625). -/
def State.peek (s : State) (a : Addr) : Option Byte :=
  match targetOf a with
  | .ram k => some (s.ramAt k)
  | .prgRam k => some (s.mapper.prgRamRead k)
  | .prgRom => some (s.mapper.prgRead a)
  | .ppu _ | .apu | .dma | .controller _ | .undriven => none

/-- Two CPU addresses name one cell: they are mirrors of each other (R91). -/
def sameCell (a b : Addr) : Bool := decide (targetOf a = targetOf b)

/-- An address whose byte a store changes: work RAM or PRG-RAM (R90, R626). -/
def writable (a : Addr) : Bool :=
  match targetOf a with
  | .ram _ | .prgRam _ => true
  | .ppu _ | .apu | .dma | .controller _ | .undriven | .prgRom => false

/-! ### What a claim says of a next state -/

/-- `n` ticks (R12). -/
def ticks (n : Nat) (s : State) : State := tick^[n] s

/-- The whole register state of the CPU (R30). -/
structure CpuIs (t : State) (a x y sp : Byte) (pc : Addr) (p : Flags) : Prop where
  a : t.a = a
  x : t.x = x
  y : t.y = y
  sp : t.sp = sp
  pc : t.pc = pc
  p : t.p = p

/-- Every byte of memory a CPU address names reads as before. -/
def SameBytes (s t : State) : Prop := ∀ c, t.peek c = s.peek c

/-- Every byte of memory reads as before, but for the listed stores, the newest first. -/
def BytesAfter (stores : List (Addr × Byte)) (s t : State) : Prop :=
  ∀ c, t.peek c =
    match stores.find? (fun e => sameCell e.1 c) with
    | some e => some e.2
    | none => s.peek c

/-- What no instruction changes: the parameters, the IRQ line, the loaded flag and the PRG ROM image (R48, R626). -/
structure Fixed (s t : State) : Prop where
  params : t.params = s.params
  irqLine : t.irqLine = s.irqLine
  cartLoaded : t.cartLoaded = s.cartLoaded
  prg : t.mapper.prg = s.mapper.prg

/-- The side of the machine that ticks and device accesses move stands in `t` as in `u`. -/
structure DevicesAs (u t : State) : Prop where
  ppu : t.ppu = u.ppu
  nmiPending : t.nmiPending = u.nmiPending
  remainingCycles : t.remainingCycles = u.remainingCycles
  draws : t.draws = u.draws
  events : t.events = u.events

/-- `t` differs from `s`, outside the CPU's registers and work RAM, by `n` ticks alone. -/
structure Waited (n : Nat) (s t : State) : Prop where
  fixed : Fixed s t
  devices : DevicesAs (ticks n s) t
  mapper : t.mapper = s.mapper
  cycles : t.remainingCycles = s.remainingCycles - n

/-- The memories behind the PPU's registers hold what they held. -/
structure SamePpuMemories (s t : State) : Prop where
  oam : t.ppu.oam = s.ppu.oam
  ciram : t.ppu.ciram = s.ppu.ciram
  palette : t.ppu.palette = s.ppu.palette

/-- No memory, CPU or PPU, is changed between `s` and `t`: what reads leave. -/
structure OnlyRead (s t : State) : Prop where
  fixed : Fixed s t
  bytes : SameBytes s t
  mapper : t.mapper = s.mapper
  memories : SamePpuMemories s t

/-- What one store of `v` at `ea` does to the memories, and what it leaves: the addressed cell where it is memory, a
serial write where it is the MMC1's port (R631), OAM through index 4 or DMA, video memory through index 7. -/
structure Stored (ea : Addr) (v : Byte) (s t : State) : Prop where
  fixed : Fixed s t
  cell : writable ea = true → ∀ c, sameCell c ea = true → t.peek c = some v
  others : ∀ c, sameCell c ea = false → t.peek c = s.peek c
  serial : targetOf ea = .prgRom → t.mapper = s.mapper.prgWrite ea v
  rom : targetOf ea = .prgRom → s.mapper.kind = .nrom → SameBytes s t
  mapper : targetOf ea ≠ .prgRom → ∃ r c, t.mapper = { s.mapper with prgRam := r, chr := c }
  chr : targetOf ea ≠ .prgRom → targetOf ea ≠ .ppu 7 → t.mapper.chr = s.mapper.chr
  oam : targetOf ea ≠ .ppu 4 → targetOf ea ≠ .dma → t.ppu.oam = s.ppu.oam
  ciram : targetOf ea ≠ .ppu 7 → t.ppu.ciram = s.ppu.ciram
  palette : targetOf ea ≠ .ppu 7 → t.ppu.palette = s.ppu.palette

/-- A result is safe when it is no fault: the hardware has no CPU-level failure (R460). -/
def safe : Result → Bool
  | .next _ => true
  | .fault _ => false
  | .refused _ => true

end Sys2Proof.Machine
end

