-- ==== Sys2Proof/WellFormed.lean ====
section
/-!
DEFINITION. WellFormed.lean: which byte strings are one whole instruction (30_encoding.md R140), and which terms of
Instr stand for one. Every operand of Instr has the exact width of its field (R132), so every term is well formed
(Laws/PerInstr.lean); what can be ill formed is a byte string.
-/

namespace Sys2Proof

/-- How a byte string can fail to be one instruction. -/
inductive IllFormed where
  /-- There is no byte. -/
  | empty
  /-- It is shorter than its opcode's length (R140). -/
  | tooShort
  /-- It is longer than its opcode's length (R140). -/
  | tooLong
  deriving DecidableEq, Repr

/-- The checks on a byte string: its length is the one its opcode gives (R140). -/
def checkBytes : List Byte → Option IllFormed
  | [] => some .empty
  | op :: rest =>
    if rest.length + 1 < lengthOf op then some .tooShort
    else if lengthOf op < rest.length + 1 then some .tooLong
    else none

/-- The bytes the operation of an instruction reads at the program counter itself: JSR's high operand byte (R362). -/
def Instr.bytesReadLater : Instr → Nat
  | .jsr _ => 1
  | _ => 0

/-- A term is well formed when its bytes, with those its operation reads itself, are one whole instruction. -/
def Instr.WellFormed (i : Instr) : Bool :=
  checkBytes (encode i ++ List.replicate i.bytesReadLater 0#8) = none

end Sys2Proof
end

