-- ==== Sys2Proof/Certificates/Slice0/Obligations.lean ====
section
/-!
DEFINITION. Certificates/Slice0/Obligations.lean: the statements for the provers, and before them the terms they use:
results in whole numbers, the shapes an instruction's completion takes, and the tables of spec/opcode_table.json. Where
a statement names an access of an instruction, it is the model's own operation (`effectiveAddress`, `memRead`,
`memWrite`, `push`), applied to what the meaning applies it to.
-/

namespace Sys2Proof.Claims

open Sys2Proof.Machine

/-! ### Results in whole numbers -/

/-- N and Z of a byte (R11). -/
def nz (p : Flags) (v : Byte) : Flags := { p with n := decide (128 ≤ v.toNat), z := decide (v.toNat = 0) }

/-- The byte and the flags of an addition with carry (R260, R262): the unsigned sum, its carry, and the overflow of the
signed sum. -/
def added (a m : Byte) (p : Flags) : Byte × Flags :=
  let sum := a.toNat + m.toNat + p.c.toNat
  let signed : Int := a.toInt + m.toInt + p.c.toNat
  let r := BitVec.ofNat 8 sum
  (r, { nz p r with c := decide (256 ≤ sum), v := decide (signed < -128 ∨ 127 < signed) })

/-- The byte and the flags of a subtraction with borrow (R261): the unsigned difference, carry when it is not negative,
and the overflow of the signed difference. -/
def subtracted (a m : Byte) (p : Flags) : Byte × Flags :=
  let borrow : Int := 1 - (p.c.toNat : Int)
  let diff : Int := (a.toNat : Int) - m.toNat - borrow
  let signed : Int := a.toInt - m.toInt - borrow
  let r := BitVec.ofInt 8 diff
  (r, { nz p r with c := decide (0 ≤ diff), v := decide (signed < -128 ∨ 127 < signed) })

/-- The flags of a compare (R333). -/
def compared (r m : Byte) (p : Flags) : Flags :=
  { p with
    c := decide (m.toNat ≤ r.toNat)
    z := decide (r.toNat = m.toNat)
    n := decide (128 ≤ (r.toNat + 256 - m.toNat) % 256) }

/-- A byte shifted left with `c` entering at bit 0 (R310, R312). -/
def movedLeft (m : Byte) (c : Bool) : Byte := BitVec.ofNat 8 (2 * m.toNat + c.toNat)

/-- A byte shifted right with `c` entering at bit 7 (R311, R313). -/
def movedRight (m : Byte) (c : Bool) : Byte := BitVec.ofNat 8 (m.toNat / 2 + 128 * c.toNat)

/-- Bit 7 of a byte. -/
def top (m : Byte) : Bool := decide (128 ≤ m.toNat)

/-- Bit 0 of a byte. -/
def bottom (m : Byte) : Bool := decide (m.toNat % 2 = 1)

/-- A flag set with the carry given (R38). -/
def carry (p : Flags) (c : Bool) : Flags := { p with c := c }

/-- One tick when indexing leaves the page (R181). -/
def pageTicks (a : Addr) (i : Byte) : Nat := if a.toNat / 256 = (a.toNat + i.toNat) / 256 then 0 else 1

/-- The pointer in the zero page at `b`, both bytes within the page (R188, R189). -/
def pointerAt (s : State) (b : Nat) : Addr := word (s.ramAt ((b + 1) % 256)) (s.ramAt (b % 256))

/-! ### How an instruction completes -/

/-- The instruction answers a next state in which `E` holds, `n` ticks on, with no memory changed. -/
def Implied (n : Nat) (i : Instr) (s : State) (E : State → Prop) : Prop :=
  ∃ t, exec i s = .next t ∧ E t ∧ Waited n s t ∧ SameBytes s t

/-- The instruction reads the byte of its operand (R195, read class) and answers a next state in which `E` holds of that
byte; beyond the registers, only that access is seen. -/
def Reads (i : Instr) (o : Operand) (s : State) (E : Byte → State → Prop) : Prop :=
  let ea := effectiveAddress .read o s
  let r := memRead ea.1 ea.2
  ∃ t, exec i s = .next t ∧ E r.1 t ∧ DevicesAs r.2 t ∧ OnlyRead s t

/-- The instruction stores `v` at its operand's address (R195, write class): no register or flag is written. -/
def Writes (i : Instr) (o : Operand) (s : State) (v : Byte) : Prop :=
  let ea := effectiveAddress .write o s
  ∃ t, exec i s = .next t ∧ CpuIs t s.a s.x s.y s.sp s.pc s.p ∧ DevicesAs (memWrite ea.1 v ea.2) t ∧
    Stored ea.1 v s t

/-- The instruction reads the byte of its operand, ticks, and stores `f` of it at the same address (R195, rmw class);
`E` holds of the byte read. -/
def Modifies (i : Instr) (o : Operand) (s : State) (f : Byte → Byte) (E : Byte → State → Prop) : Prop :=
  let ea := effectiveAddress .rmw o s
  let r := memRead ea.1 ea.2
  ∃ t, exec i s = .next t ∧ E r.1 t ∧ DevicesAs (memWrite ea.1 (f r.1) (tick r.2)) t ∧
    Stored ea.1 (f r.1) s t

/-- The instruction branches to the next instruction's address plus `d` when `taken`: one tick, and one more to another
page (R350). -/
def Branches (i : Instr) (taken : Bool) (d : Byte) (s : State) : Prop :=
  let target := BitVec.ofInt 16 (s.pc.toNat + d.toInt)
  if taken then
    Implied (if target.toNat / 256 = s.pc.toNat / 256 then 1 else 2) i s
      (fun t => CpuIs t s.a s.x s.y s.sp target s.p)
  else Implied 0 i s (fun t => CpuIs t s.a s.x s.y s.sp s.pc s.p)

/-- A loaded byte in A, with its N and Z (R220). -/
def inA (s : State) (v : Byte) (t : State) : Prop := CpuIs t v s.x s.y s.sp s.pc (nz s.p v)

/-- A loaded byte in X, with its N and Z (R221). -/
def inX (s : State) (v : Byte) (t : State) : Prop := CpuIs t s.a v s.y s.sp s.pc (nz s.p v)

/-- A loaded byte in Y, with its N and Z (R222). -/
def inY (s : State) (v : Byte) (t : State) : Prop := CpuIs t s.a s.x v s.sp s.pc (nz s.p v)

/-- A result in A, with all its flags. -/
def inAWith (s : State) (r : Byte × Flags) (t : State) : Prop := CpuIs t r.1 s.x s.y s.sp s.pc r.2

/-- No register written, and these flags. -/
def flagsOnly (s : State) (p : Flags) (t : State) : Prop := CpuIs t s.a s.x s.y s.sp s.pc p

/-- The flags of BIT: Z from the bits in common, N and V from bits 7 and 6 of the byte (R293). -/
def bitFlags (a m : Byte) (p : Flags) : Flags :=
  { p with z := decide (a &&& m = 0#8), n := decide (128 ≤ m.toNat), v := decide (m.toNat / 64 % 2 = 1) }

/-- SLO's effect on A (R427). -/
def orInto (a r : Byte) (p : Flags) : Byte × Flags := (a ||| r, nz p (a ||| r))

/-- RLA's effect on A (R428). -/
def andInto (a r : Byte) (p : Flags) : Byte × Flags := (a &&& r, nz p (a &&& r))

/-- SRE's effect on A (R429). -/
def eorInto (a r : Byte) (p : Flags) : Byte × Flags := (a ^^^ r, nz p (a ^^^ r))

/-- The result of the undefined opcode `op` fetched just before `s` is that of a no-op of one tick with its diagnostic
(R440). -/
def ActsAsNoOp (r : Result) (op : Byte) (s : State) : Prop :=
  ∃ t, r = .next t ∧ CpuIs t s.a s.x s.y s.sp s.pc s.p ∧ SameBytes s t ∧ Fixed s t ∧ t.mapper = s.mapper ∧
    t.ppu = (tick s).ppu ∧ t.nmiPending = (tick s).nmiPending ∧ t.remainingCycles = s.remainingCycles - 1 ∧
    t.draws = s.draws ∧ t.events = .undefinedOpcode op (s.pc - 1#16) :: (tick s).events

/-- The undefined opcode's effect under either policy (R440, R441). -/
def Undefined (i : Instr) (op : Byte) (s : State) : Prop :=
  (s.params.undefinedPolicy = .nop → ActsAsNoOp (exec i s) op s) ∧
    (s.params.undefinedPolicy = .fault → exec i s = .fault (.undefinedOpcode op (s.pc - 1#16)))

/-- UNOFFICIAL_SET gives the instruction's opcode a handler: it is no unofficial opcode that the set leaves out (R420). -/
def HasHandler (p : Params) (i : Instr) : Prop := ∀ op ∈ (encode i).head?, p.removes op = false

/-- An address of the PPU's window that selects register `i`: 0x2000 + i or a mirror of it (R92). -/
def AtPpu (i : Nat) (a : Addr) : Prop := 0x2000 ≤ a.toNat ∧ a.toNat < 0x4000 ∧ a.toNat % 8 = i

/-! ### Pixels in whole numbers -/

/-- The background pixel at column `x` and its palette group (R572). -/
def backgroundAt (p : Ppu) (x : Nat) : Nat × Nat :=
  let at' := fun (r : BitVec 16) => r.toNat / 2 ^ (15 - p.fineX.toNat) % 2
  (if p.mask.toNat / 8 % 2 = 1 ∧ (8 ≤ x ∨ p.mask.toNat / 2 % 2 = 1) then 2 * at' p.bgHi + at' p.bgLo else 0, 2 * at' p.atHi + at' p.atLo)

/-- Sprites are shown at column `x` (R586). -/
def spritesAt (p : Ppu) (x : Nat) : Bool := decide (p.mask.toNat / 16 % 2 = 1 ∧ (8 ≤ x ∨ p.mask.toNat / 4 % 2 = 1))

/-- A sprite slot's own pixel at column `x`, 0 where it has none (R586). -/
def slotAt (k : SpriteSlot) (x : Nat) : Nat :=
  let at' := fun (b : Byte) => b.toNat / 2 ^ (7 - (x - k.x.toNat)) % 2
  if k.x.toNat ≤ x ∧ x ≤ k.x.toNat + 7 then 2 * at' k.hi + at' k.lo else 0

/-- The palette index of the pixel at column `x`: the first opaque slot's unless the background is opaque and in front,
else the background's (R586, R590). -/
def indexAt (p : Ppu) (x : Nat) : Nat :=
  let bg := backgroundAt p x
  let back := if bg.1 = 0 then 0 else 4 * bg.2 + bg.1
  match if spritesAt p x then (p.slots.take p.spCount).find? (fun k => slotAt k x ≠ 0) else none with
  | none => back
  | some k =>
    if bg.1 = 0 ∨ k.attr.toNat / 32 % 2 = 0 then 0x10 + 4 * (k.attr.toNat % 4) + slotAt k x else back

/-- The colour of a palette index, greyscale when PPUMASK bit 0 is set (R591). -/
def colourOf (p : Ppu) (n : Nat) : Colour :=
  let c := (p.paletteAt (BitVec.ofNat 14 (0x3F00 + n))).toNat
  Config.masterPalette (BitVec.ofNat 6 (if p.mask.toNat % 2 = 1 then c / 16 * 16 else c))

/-- The sprites with a row on the current line, in OAM order (R582). -/
def inRange (p : Ppu) : List Nat :=
  (List.range 64).filter (fun n =>
    decide ((p.oamAt (4 * n)).toNat ≤ p.scanline ∧
      p.scanline < (p.oamAt (4 * n)).toNat + if p.ctrl.toNat / 32 % 2 = 1 then 16 else 8))

/-- What the slot that secondary OAM's slot `i` loads holds (R584): its X and attributes and, where its row is on the
sprite, the two pattern bytes, reversed when attribute bit 6 is set. -/
def SlotLoaded (m : Mapper) (p : Ppu) (i : Nat) (k : SpriteSlot) : Prop :=
  let y := (p.secAt (4 * i)).toNat
  let tile := (p.secAt (4 * i + 1)).toNat
  let attr := (p.secAt (4 * i + 2)).toNat
  let h := if p.ctrl.toNat / 32 % 2 = 1 then 16 else 8
  let r := if attr / 128 = 1 then h - 1 - (p.scanline - y) else p.scanline - y
  let a :=
    if h = 16 then tile % 2 * 0x1000 + (tile / 2 * 2 + r / 8) * 16 + r % 8
    else p.ctrl.toNat / 8 % 2 * 0x1000 + tile * 16 + r
  let from' := fun (b : Byte) (c : Nat) =>
    ∀ j, j < 8 → b.getLsbD j = (ppuRead m p (BitVec.ofNat 14 c)).getLsbD (if attr / 64 % 2 = 1 then 7 - j else j)
  k.x = p.secAt (4 * i + 3) ∧ k.attr = p.secAt (4 * i + 2) ∧
    (y ≤ p.scanline → p.scanline < y + h → from' k.lo a ∧ from' k.hi (a + 8))

/-- The 25 undefined opcodes (R138). -/
def undefinedOpcodes : List Byte :=
  [0x02#8, 0x12#8, 0x22#8, 0x32#8, 0x42#8, 0x52#8, 0x62#8, 0x72#8, 0x92#8, 0xB2#8, 0xD2#8, 0xF2#8, 0x0B#8] ++
  [0x2B#8, 0x4B#8, 0x6B#8, 0x8B#8, 0xAB#8, 0xCB#8, 0x93#8, 0x9B#8, 0x9C#8, 0x9E#8, 0x9F#8, 0xBB#8]

/-- The cell of PPU space an address names: its region and its index there (R550 to R552, R627). -/
def videoCell (m : Mapper) (a : VAddr) : Nat × Nat :=
  if a.toNat < 0x2000 then (0, m.chrOffset a)
  else if a.toNat < 0x3F00 then (1, ntIndex m.mirroring (a.toNat % 0x1000))
  else (2, palIndex a)

/-- The ticks of opcodes 0x00 to 0x7F (spec/opcode_table.json). -/
def ticksLow : List Nat :=
  [7, 6, 2, 8, 3, 3, 5, 5, 3, 2, 2, 2, 4, 4, 6, 6,
   2, 5, 2, 8, 4, 4, 6, 6, 2, 4, 2, 7, 4, 4, 7, 7,
   6, 6, 2, 8, 3, 3, 5, 5, 4, 2, 2, 2, 4, 4, 6, 6,
   2, 5, 2, 8, 4, 4, 6, 6, 2, 4, 2, 7, 4, 4, 7, 7,
   6, 6, 2, 8, 3, 3, 5, 5, 3, 2, 2, 2, 3, 4, 6, 6,
   2, 5, 2, 8, 4, 4, 6, 6, 2, 4, 2, 7, 4, 4, 7, 7,
   6, 6, 2, 8, 3, 3, 5, 5, 4, 2, 2, 2, 5, 4, 6, 6,
   2, 5, 2, 8, 4, 4, 6, 6, 2, 4, 2, 7, 4, 4, 7, 7]

/-- The ticks of opcodes 0x80 to 0xFF (spec/opcode_table.json). -/
def ticksHigh : List Nat :=
  [2, 6, 2, 6, 3, 3, 3, 3, 2, 2, 2, 2, 4, 4, 4, 4,
   2, 6, 2, 2, 4, 4, 4, 4, 2, 5, 2, 2, 2, 5, 2, 2,
   2, 6, 2, 6, 3, 3, 3, 3, 2, 2, 2, 2, 4, 4, 4, 4,
   2, 5, 2, 5, 4, 4, 4, 4, 2, 4, 2, 2, 4, 4, 4, 4,
   2, 6, 2, 8, 3, 3, 5, 5, 2, 2, 2, 2, 4, 4, 6, 6,
   2, 5, 2, 8, 4, 4, 6, 6, 2, 4, 2, 7, 4, 4, 7, 7,
   2, 6, 2, 8, 3, 3, 5, 5, 2, 2, 2, 2, 4, 4, 6, 6,
   2, 5, 2, 8, 4, 4, 6, 6, 2, 4, 2, 7, 4, 4, 7, 7]

/-- The ticks of an opcode, its fetch included (spec/opcode_table.json, R198). -/
def ticksOf (op : Byte) : Nat := (ticksLow ++ ticksHigh).getD op.toNat 0

/-- The extra ticks of a branch (R350). -/
def branchTicks (taken : Bool) (d : Byte) (s : State) : Nat :=
  if taken then (if (BitVec.ofInt 16 (s.pc.toNat + d.toInt)).toNat / 256 = s.pc.toNat / 256 then 1 else 2) else 0

/-- The extra ticks of an instruction (spec/opcode_table.json): a page cross of the read-class abx, aby and izy forms,
and a branch taken. -/
def extraTicks (i : Instr) (s : State) : Nat :=
  match i with
  | .bpl d => branchTicks (!s.p.n) d s
  | .oraIzy b => pageTicks (pointerAt s b.toNat) s.y
  | .oraAby a => pageTicks a s.y
  | .nop1C a => pageTicks a s.x
  | .oraAbx a => pageTicks a s.x
  | .bmi d => branchTicks (s.p.n) d s
  | .andIzy b => pageTicks (pointerAt s b.toNat) s.y
  | .andAby a => pageTicks a s.y
  | .nop3C a => pageTicks a s.x
  | .andAbx a => pageTicks a s.x
  | .bvc d => branchTicks (!s.p.v) d s
  | .eorIzy b => pageTicks (pointerAt s b.toNat) s.y
  | .eorAby a => pageTicks a s.y
  | .nop5C a => pageTicks a s.x
  | .eorAbx a => pageTicks a s.x
  | .bvs d => branchTicks (s.p.v) d s
  | .adcIzy b => pageTicks (pointerAt s b.toNat) s.y
  | .adcAby a => pageTicks a s.y
  | .nop7C a => pageTicks a s.x
  | .adcAbx a => pageTicks a s.x
  | .bcc d => branchTicks (!s.p.c) d s
  | .bcs d => branchTicks (s.p.c) d s
  | .ldaIzy b => pageTicks (pointerAt s b.toNat) s.y
  | .laxIzy b => pageTicks (pointerAt s b.toNat) s.y
  | .ldaAby a => pageTicks a s.y
  | .ldyAbx a => pageTicks a s.x
  | .ldaAbx a => pageTicks a s.x
  | .ldxAby a => pageTicks a s.y
  | .laxAby a => pageTicks a s.y
  | .bne d => branchTicks (!s.p.z) d s
  | .cmpIzy b => pageTicks (pointerAt s b.toNat) s.y
  | .cmpAby a => pageTicks a s.y
  | .nopDC a => pageTicks a s.x
  | .cmpAbx a => pageTicks a s.x
  | .beq d => branchTicks (s.p.z) d s
  | .sbcIzy b => pageTicks (pointerAt s b.toNat) s.y
  | .sbcAby a => pageTicks a s.y
  | .nopFC a => pageTicks a s.x
  | .sbcAbx a => pageTicks a s.x
  | _ => 0

end Sys2Proof.Claims

open Sys2Proof Sys2Proof.Machine Sys2Proof.Claims

/-- O1. Decoding the bytes of any instruction gives it back, with every operand and the rest of the bytes (R130, R131,
R132, R133, R135). -/
def Obligations.DecodeOfEncode : Prop :=
  ∀ (i : Instr) (rest : List Byte), decode (encode i ++ rest) = .ok (i, rest)

/-- O2. Every byte begins exactly one instruction, whose bytes are those decoded and whose length is its mode's (R131,
R132, R135, R140). -/
def Obligations.EncodeOfDecode : Prop :=
  (∀ (op b1 b2 : Byte) (rest : List Byte), ∃ i r, decode (op :: b1 :: b2 :: rest) = .ok (i, r)) ∧
    (∀ (bytes : List Byte) (i : Instr) (rest : List Byte), decode bytes = .ok (i, rest) →
      bytes = encode i ++ rest ∧
        ∀ op tail, bytes = op :: tail → (encode i).length + i.bytesReadLater = lengthOf op)

/-- O3. A few words written out from the opcode map decode to the instructions they stand for (R132, R133, R135). -/
def Obligations.WordsDecodeAsTheMapSays : Prop :=
  decode [0xA9#8, 0x80#8] = .ok (.ldaImm 0x80#8, []) ∧
    decode [0x91#8, 0x10#8] = .ok (.staIzy 0x10#8, []) ∧
    decode [0x7D#8, 0x34#8, 0x12#8] = .ok (.adcAbx 0x1234#16, []) ∧
    decode [0x2C#8, 0x02#8, 0x20#8] = .ok (.bitAbs 0x2002#16, []) ∧
    decode [0x6A#8] = .ok (.rorAcc, []) ∧
    decode [0xE0#8, 0x05#8] = .ok (.cpxImm 0x05#8, []) ∧
    decode [0xD0#8, 0xFD#8] = .ok (.bne 0xFD#8, []) ∧
    decode [0x6C#8, 0xFF#8, 0x10#8] = .ok (.jmpInd 0x10FF#16, []) ∧
    decode [0x08#8] = .ok (.php, []) ∧
    decode [0xA7#8, 0x20#8] = .ok (.laxZp 0x20#8, []) ∧
    decode [0x02#8] = .ok (.undef02, [])

/-- O4. A step with no interrupt due fetches the bytes at the pc and runs exec of what they decode to (R131, R420,
R462, R463, R36). -/
def Obligations.StepRunsDecodedInstruction : Prop :=
  ∀ (s : State) (i : Instr) (rest : List Byte), s.cartLoaded = true → s.nmiPending = false → s.irqDue = false →
    decode (fetchedBytes s.opened) = .ok (i, rest) → HasHandler s.params i →
    rest = [] ∧ (fetchInstr s.opened).1 = i ∧ step s = exec i (fetchInstr s.opened).2 ∧
      (fetchInstr s.opened).2.pc = s.pc + BitVec.ofNat 16 (encode i).length ∧
      (fetchInstr s.opened).2.remainingCycles = s.opened.remainingCycles - (encode i).length

/-- O5. An instruction whose bytes stand in memory at the pc is what the step runs, wherever the pc points (R84, R114,
R131, R420, R462). -/
def Obligations.StepRunsBytesInMemory : Prop :=
  ∀ (s : State) (i : Instr), s.cartLoaded = true → s.nmiPending = false → s.irqDue = false → HasHandler s.params i →
    (∀ (k : Nat) (b : Byte), (encode i)[k]? = some b → s.peek (s.pc + BitVec.ofNat 16 k) = some b) →
    step s = exec i ((ticks (encode i).length s.opened).setPc (s.pc + BitVec.ofNat 16 (encode i).length))

/-- O6. power() leaves the registers, RAM, latches, counter and PPU at their power-on values, 7 ticks on (R670). -/
def Obligations.PowerOnValues : Prop :=
  ∀ s : State,
    (s.cartLoaded = false → power s = .refused .noCartridge) ∧
    (s.cartLoaded = true → ∃ t, power s = .next t ∧
      CpuIs t 0#8 0#8 0#8 0xFD#8 (word (s.mapper.prgRead 0xFFFD#16) (s.mapper.prgRead 0xFFFC#16))
        { c := false, z := false, i := true, d := false, v := false, n := false } ∧
      (∀ k, t.ramAt k = s.params.ramPoison) ∧ t.nmiPending = false ∧ t.irqLine = false ∧
      t.remainingCycles = -7 ∧ t.mapper = s.mapper ∧ t.params = s.params ∧ t.cartLoaded = true ∧
      t.ppu.scanline = 0 ∧ t.ppu.dot = 21 ∧ t.ppu.ctrl = 0#8 ∧ t.ppu.mask = 0#8 ∧ t.ppu.vblank = false ∧
      t.ppu.spr0hit = false ∧ t.ppu.sprOverflow = false ∧ t.ppu.oamAddr = 0#8 ∧ t.ppu.v = 0#15 ∧ t.ppu.t = 0#15 ∧
      t.ppu.fineX = 0#3 ∧ t.ppu.w = false ∧ t.ppu.readBuf = 0#8 ∧ t.ppu.ntLatch = 0#8 ∧ t.ppu.atLatch = 0#2 ∧
      t.ppu.ptLoLatch = 0#8 ∧ t.ppu.ptHiLatch = 0#8 ∧ t.ppu.bgLo = 0#16 ∧ t.ppu.bgHi = 0#16 ∧ t.ppu.atLo = 0#16 ∧
      t.ppu.atHi = 0#16 ∧ t.ppu.secCount = 0 ∧ t.ppu.secHasZero = false ∧ t.ppu.spCount = 0 ∧ t.ppu.spZero = false)

/-- O7. reset() sets the pc, I and S - 3, drops a pending NMI, and leaves everything else but 7 ticks (R671, R672). -/
def Obligations.WarmResetKeepsTheRest : Prop :=
  ∀ s : State,
    CpuIs (warmReset s) s.a s.x s.y (s.sp - 3#8) (word (s.mapper.prgRead 0xFFFD#16) (s.mapper.prgRead 0xFFFC#16))
        { s.p with i := true } ∧
      (warmReset s).ram = s.ram ∧ Waited 7 (s.setNmi false) (warmReset s)

/-- O8. State.reset holds the values after power(), over the blank cartridge that is the model's choice (R670, R673,
R674). -/
def Obligations.ResetStateHoldsThePowerOnValues : Prop :=
  CpuIs State.reset 0#8 0#8 0#8 0xFD#8 0#16 { c := false, z := false, i := true, d := false, v := false, n := false } ∧
    State.reset.p.pack true = 0x34#8 ∧ (∀ k, State.reset.ramAt k = 0xFF#8) ∧ State.reset.nmiPending = false ∧
    State.reset.irqLine = false ∧ State.reset.remainingCycles = -7 ∧ State.reset.ppu.scanline = 0 ∧
    State.reset.ppu.dot = 21 ∧ State.reset.cartLoaded = true ∧ State.reset.inv = true

/-- O9. Every step keeps the invariant: canonical memories, positions, counts and sizes in range (R91, R521, R551,
R552, R620, R625, R630, R636). -/
def Obligations.StepKeepsTheInvariant : Prop :=
  ∀ s t : State, s.inv = true → step s = .next t → t.inv = true

/-- O10. No step changes PRG ROM, CHR ROM, the cartridge's sizes, the parameters, the IRQ line or, on NROM, any mapper
register (R48, R620, R626, R627, R628, R630). -/
def Obligations.RomAndSettingsNeverChange : Prop :=
  ∀ s t : State, step s = .next t →
    Fixed s t ∧ t.mapper.kind = s.mapper.kind ∧ t.mapper.prgUnits = s.mapper.prgUnits ∧
      t.mapper.chrUnits = s.mapper.chrUnits ∧ t.mapper.chrIsRam = s.mapper.chrIsRam ∧
      t.mapper.prgRamUnits = s.mapper.prgRamUnits ∧ (s.mapper.chrIsRam = false → t.mapper.chr = s.mapper.chr) ∧
      (s.mapper.kind = .nrom → t.mapper.mirroring = s.mapper.mirroring ∧ t.mapper.sr = s.mapper.sr ∧
        t.mapper.count = s.mapper.count ∧ t.mapper.control = s.mapper.control ∧ t.mapper.chr0 = s.mapper.chr0 ∧
        t.mapper.chr1 = s.mapper.chr1 ∧ t.mapper.prgBank = s.mapper.prgBank)

/-- O11. Every step of a loaded machine completes, but for an undefined opcode under the fault policy (R460, R131,
R138, R420, R440, R441, R490). -/
def Obligations.OnlyUndefinedOpcodesCanStop : Prop :=
  ∀ s : State,
    (s.cartLoaded = true → s.params.undefinedPolicy = .nop → ∃ t, step s = .next t) ∧
    (s.cartLoaded = true → ∀ r, step s ≠ .refused r) ∧
    (∀ f, step s = .fault f →
      s.params.undefinedPolicy = .fault ∧ ∃ op a, f = .undefinedOpcode op a ∧ (op ∈ undefinedOpcodes ∨ s.params.removes op = true)) ∧
    (s.cartLoaded = false → step s = .refused .noCartridge ∧ runFrame s = .refused .noCartridge)

/-- O12. run_frame returns at a boundary with the counter at zero or below, and at most 7 ticks below (R462, R470,
R471). -/
def Obligations.FrameRunEndsWithItsBudget : Prop :=
  ∀ s : State, s.cartLoaded = true → s.params.undefinedPolicy = .nop → s.params.oamDmaEnabled = false →
    ∃ t, runFrame s = .next t ∧ t.remainingCycles ≤ 0 ∧
      (0 < s.remainingCycles + 29781 → -7 ≤ t.remainingCycles)

/-- O13. Interrupt entry: pc and status image pushed, I set, the pc from the vector, 7 ticks, nothing else (R462,
R468, R469). -/
def Obligations.InterruptEntrySavesAndVectors : Prop :=
  ∀ s : State, s.inv = true → s.cartLoaded = true → (s.nmiPending = true ∨ s.irqLine = true ∧ s.p.i = false) →
    let vec : Addr := if s.nmiPending then 0xFFFA#16 else 0xFFFE#16
    ∃ t, step s = .next t ∧
      CpuIs t s.a s.x s.y (s.sp - 3#8) (word (s.mapper.prgRead (vec + 1#16)) (s.mapper.prgRead vec))
        { s.p with i := true } ∧
      BytesAfter
        [(stackAddr (s.sp - 2#8), s.p.pack false), (stackAddr (s.sp - 1#8), lo8 s.pc), (stackAddr s.sp, hi8 s.pc)] s t ∧
      Waited 7 (s.opened.setNmi false) t

/-- O14. NMI goes before IRQ, I masks IRQ alone, and an NMI entry masks IRQ (R462, R464, R466, R468). -/
def Obligations.InterruptPriority : Prop :=
  ∀ s : State, s.cartLoaded = true →
    (s.nmiPending = true → step s = .next (interrupt .nmi (s.opened.setNmi false))) ∧
    (s.nmiPending = false → s.irqLine = true → s.p.i = false →
      step s = .next (interrupt .irq s.opened) ∧ (interrupt .irq s.opened).irqLine = true) ∧
    (s.nmiPending = false → (s.irqLine = false ∨ s.p.i = true) → step s = runInstr s.opened) ∧
    (∀ k, (interrupt k s).irqDue = false)

/-- O15. RTI right after an interrupt entry restores the pc, the stack pointer and every flag (R45, R401, R463, R469).
-/
def Obligations.ReturnFromInterruptUndoesEntry : Prop :=
  ∀ (k : Interrupt) (s : State), s.inv = true →
    ∃ t, exec .rti (interrupt k s) = .next t ∧ CpuIs t s.a s.x s.y s.sp s.pc s.p ∧ Waited 12 s t

/-- O16. A byte written through one work-RAM alias is read back through every alias, with no other effect (R91). -/
def Obligations.RamIsMirroredFourTimes : Prop :=
  ∀ (s : State) (a b : Addr) (v : Byte), s.inv = true → a.toNat < 0x2000 → b.toNat < 0x2000 →
    (a.toNat % 0x800 = b.toNat % 0x800 → (busRead b (busWrite a v s)).1 = v) ∧
    (a.toNat % 0x800 ≠ b.toNat % 0x800 → (busRead b (busWrite a v s)).1 = (busRead b s).1) ∧
    (busRead a s).2 = s ∧ (busWrite a v s).setRam s.ram = s

/-- O17. The APU stub reads 0 and ignores writes; the controller ports and unassigned addresses draw (R90, R94, R95,
R96, R99, R625, R626). -/
def Obligations.IoWindowAndUnassignedAddresses : Prop :=
  ∀ (s : State) (a : Addr) (v : Byte),
    (0x4000 ≤ a.toNat → a.toNat < 0x4016 → busRead a s = (0x00#8, s)) ∧
    (0x4000 ≤ a.toNat → a.toNat < 0x4016 → a.toNat ≠ 0x4014 → busWrite a v s = s) ∧
    (a.toNat = 0x4014 → s.params.oamDmaEnabled = false → busWrite a v s = s) ∧
    (0x4016 ≤ a.toNat → a.toNat < 0x6000 → (busRead a s).2 = s.countDraw) ∧
    (a.toNat = 0x4016 → busWrite a v s = s.emit (.controllerStrobe v)) ∧
    (0x4017 ≤ a.toNat → a.toNat < 0x6000 → busWrite a v s = s)

/-- O18. With OAM_DMA_ENABLED a write to 0x4014 copies a RAM page into OAM in 513 ticks (R95, R537). -/
def Obligations.SpriteDmaCopiesAPage : Prop :=
  ∀ (s : State) (v : Byte), s.params.oamDmaEnabled = true → v.toNat < 0x20 →
    let t := busWrite 0x4014#16 v s
    (∀ i, i < 256 →
      t.ppu.oamAt ((s.ppu.oamAddr.toNat + i) % 256) = s.ramAt ((v.toNat * 256 + i) % 0x800)) ∧
    t.ppu.oamAddr = s.ppu.oamAddr ∧ CpuIs t s.a s.x s.y s.sp s.pc s.p ∧ t.ram = s.ram ∧ t.mapper = s.mapper ∧
    t.remainingCycles = s.remainingCycles - 513

/-- O19. PRG-RAM stores bytes; a write to ROM space changes nothing on NROM and is one serial write on the MMC1 (R625,
R626, R630, R631). -/
def Obligations.CartridgeRamAndRomAccesses : Prop :=
  ∀ (s : State) (a b : Addr) (v : Byte),
    (0x6000 ≤ a.toNat → a.toNat < 0x8000 → 0x6000 ≤ b.toNat → b.toNat < 0x8000 →
      (busRead b (busWrite a v s)).1 = (if b = a then v else (busRead b s).1) ∧
        (busWrite a v s).setMapper s.mapper = s) ∧
    (0x6000 ≤ b.toNat → (busRead b s).2 = s) ∧
    (0x8000 ≤ a.toNat → s.mapper.kind = .nrom → busWrite a v s = s) ∧
    (0x8000 ≤ a.toNat → s.mapper.kind = .mmc1 → busWrite a v s = s.setMapper (s.mapper.serialWrite a v)) ∧
    (0x8000 ≤ a.toNat → (busWrite a v s).mapper.prg = s.mapper.prg)

/-- O20. The status image has each flag at its bit, bit 5 set and bit 4 as given; unpacking discards both (R44, R45).
-/
def Obligations.StatusImagePacksAndUnpacks : Prop :=
  (∀ (p : Flags) (b : Bool), (p.pack b).toNat =
        128 * p.n.toNat + 64 * p.v.toNat + 32 + 16 * b.toNat + 8 * p.d.toNat + 4 * p.i.toNat + 2 * p.z.toNat +
          p.c.toNat) ∧
    (∀ m : Byte, (unpack m).c = decide (m.toNat % 2 = 1) ∧ (unpack m).z = decide (m.toNat / 2 % 2 = 1) ∧
      (unpack m).i = decide (m.toNat / 4 % 2 = 1) ∧ (unpack m).d = decide (m.toNat / 8 % 2 = 1) ∧
      (unpack m).v = decide (m.toNat / 64 % 2 = 1) ∧ (unpack m).n = decide (m.toNat / 128 % 2 = 1)) ∧
    (∀ (p : Flags) (b : Bool), unpack (p.pack b) = p)

/-- O21. cross(a, i) holds exactly when the untruncated sum has another high byte (R181). -/
def Obligations.PageCrossIsAHighByteChange : Prop :=
  ∀ (a : Addr) (i : Byte), cross a i = true ↔ a.toNat &&& 0xFF00 ≠ (a.toNat + i.toNat) &&& 0xFF00

/-- O22. The effective address of each mode and class, in whole numbers, and the ticks it takes after the operand
bytes (R185, R186, R187, R188, R189, R190, R191, R192, R193, R194, R91). -/
def Obligations.EffectiveAddressesAndTheirTicks : Prop :=
  ∀ (c : OpClass) (s : State),
    let extra := fun (a : Addr) (i : Byte) => if c = .read then pageTicks a i else 1
    let is := fun (o : Operand) (ea n : Nat) =>
      (effectiveAddress c o s).1 = BitVec.ofNat 16 ea ∧ (effectiveAddress c o s).2 = ticks n s
    (∀ b : Byte, is (.zp b) b.toNat 0 ∧ is (.zpx b) ((b.toNat + s.x.toNat) % 256) 1 ∧
      is (.zpy b) ((b.toNat + s.y.toNat) % 256) 1 ∧ is (.izx b) (pointerAt s (b.toNat + s.x.toNat)).toNat 3 ∧
      is (.izy b) ((pointerAt s b.toNat).toNat + s.y.toNat) (2 + extra (pointerAt s b.toNat) s.y)) ∧
    (∀ a : Addr, is (.abs a) a.toNat 0 ∧ is (.abx a) (a.toNat + s.x.toNat) (extra a s.x) ∧
      is (.aby a) (a.toNat + s.y.toNat) (extra a s.y))

/-- O23. Each of the 256 instructions completes in the ticks of the opcode table, with its page and branch extras
(R198, R350, R710, R183, R440). -/
def Obligations.EveryInstructionTakesItsTicks : Prop :=
  ∀ (i : Instr) (s : State), s.params.oamDmaEnabled = false → s.params.undefinedPolicy = .nop →
    ∃ op rest t, encode i = op :: rest ∧ exec i s = .next t ∧
      t.remainingCycles = s.remainingCycles - ((ticksOf op : Int) - (encode i).length + extraTicks i s)

/-- O24. LDA, LDX, LDY and LAX complete in every form with the byte in the register, N and Z from it, all else kept
(R195, R220, R221, R222, R422). -/
def Obligations.LoadsWriteTheirRegister : Prop :=
  ∀ s : State,
    (∀ b : Byte, Reads (.ldaIzx b) (.izx b) s (inA s)) ∧
    (∀ b : Byte, Reads (.ldaZp b) (.zp b) s (inA s)) ∧
    (∀ v : Byte, Implied 0 (.ldaImm v) s (inA s v)) ∧
    (∀ a : Addr, Reads (.ldaAbs a) (.abs a) s (inA s)) ∧
    (∀ b : Byte, Reads (.ldaIzy b) (.izy b) s (inA s)) ∧
    (∀ b : Byte, Reads (.ldaZpx b) (.zpx b) s (inA s)) ∧
    (∀ a : Addr, Reads (.ldaAby a) (.aby a) s (inA s)) ∧
    (∀ a : Addr, Reads (.ldaAbx a) (.abx a) s (inA s)) ∧
    (∀ v : Byte, Implied 0 (.ldxImm v) s (inX s v)) ∧
    (∀ b : Byte, Reads (.ldxZp b) (.zp b) s (inX s)) ∧
    (∀ a : Addr, Reads (.ldxAbs a) (.abs a) s (inX s)) ∧
    (∀ b : Byte, Reads (.ldxZpy b) (.zpy b) s (inX s)) ∧
    (∀ a : Addr, Reads (.ldxAby a) (.aby a) s (inX s)) ∧
    (∀ v : Byte, Implied 0 (.ldyImm v) s (inY s v)) ∧
    (∀ b : Byte, Reads (.ldyZp b) (.zp b) s (inY s)) ∧
    (∀ a : Addr, Reads (.ldyAbs a) (.abs a) s (inY s)) ∧
    (∀ b : Byte, Reads (.ldyZpx b) (.zpx b) s (inY s)) ∧
    (∀ a : Addr, Reads (.ldyAbx a) (.abx a) s (inY s)) ∧
    (∀ b : Byte, Reads (.laxIzx b) (.izx b) s (fun m t => CpuIs t m m s.y s.sp s.pc (nz s.p m))) ∧
    (∀ b : Byte, Reads (.laxZp b) (.zp b) s (fun m t => CpuIs t m m s.y s.sp s.pc (nz s.p m))) ∧
    (∀ a : Addr, Reads (.laxAbs a) (.abs a) s (fun m t => CpuIs t m m s.y s.sp s.pc (nz s.p m))) ∧
    (∀ b : Byte, Reads (.laxIzy b) (.izy b) s (fun m t => CpuIs t m m s.y s.sp s.pc (nz s.p m))) ∧
    (∀ b : Byte, Reads (.laxZpy b) (.zpy b) s (fun m t => CpuIs t m m s.y s.sp s.pc (nz s.p m))) ∧
    (∀ a : Addr, Reads (.laxAby a) (.aby a) s (fun m t => CpuIs t m m s.y s.sp s.pc (nz s.p m)))

/-- O25. STA, STX, STY and SAX complete in every form with the register stored at the effective address, all else kept
(R195, R223, R224, R225, R423, R626). -/
def Obligations.StoresWriteTheirAddress : Prop :=
  ∀ s : State, s.inv = true →
    (∀ b : Byte, Writes (.staIzx b) (.izx b) s s.a) ∧
    (∀ b : Byte, Writes (.staZp b) (.zp b) s s.a) ∧
    (∀ a : Addr, Writes (.staAbs a) (.abs a) s s.a) ∧
    (∀ b : Byte, Writes (.staIzy b) (.izy b) s s.a) ∧
    (∀ b : Byte, Writes (.staZpx b) (.zpx b) s s.a) ∧
    (∀ a : Addr, Writes (.staAby a) (.aby a) s s.a) ∧
    (∀ a : Addr, Writes (.staAbx a) (.abx a) s s.a) ∧
    (∀ b : Byte, Writes (.stxZp b) (.zp b) s s.x) ∧
    (∀ a : Addr, Writes (.stxAbs a) (.abs a) s s.x) ∧
    (∀ b : Byte, Writes (.stxZpy b) (.zpy b) s s.x) ∧
    (∀ b : Byte, Writes (.styZp b) (.zp b) s s.y) ∧
    (∀ a : Addr, Writes (.styAbs a) (.abs a) s s.y) ∧
    (∀ b : Byte, Writes (.styZpx b) (.zpx b) s s.y) ∧
    (∀ b : Byte, Writes (.saxIzx b) (.izx b) s (s.a &&& s.x)) ∧
    (∀ b : Byte, Writes (.saxZp b) (.zp b) s (s.a &&& s.x)) ∧
    (∀ a : Addr, Writes (.saxAbs a) (.abs a) s (s.a &&& s.x)) ∧
    (∀ b : Byte, Writes (.saxZpy b) (.zpy b) s (s.a &&& s.x))

/-- O26. TAX TAY TXA TYA TSX TXS INX INY DEX DEY CLC SEC CLI SEI CLD SED CLV complete in one tick after the fetch
(R182, R240, R241, R242, R243, R244, R245, R265, R266, R267, R268, R390, R391, R392, R393, R394, R395, R396). -/
def Obligations.TransfersIndexStepsAndFlags : Prop :=
  ∀ s : State,
    Implied 1 .tax s (fun t => CpuIs t s.a s.a s.y s.sp s.pc (nz s.p s.a)) ∧
    Implied 1 .tay s (fun t => CpuIs t s.a s.x s.a s.sp s.pc (nz s.p s.a)) ∧
    Implied 1 .txa s (fun t => CpuIs t s.x s.x s.y s.sp s.pc (nz s.p s.x)) ∧
    Implied 1 .tya s (fun t => CpuIs t s.y s.x s.y s.sp s.pc (nz s.p s.y)) ∧
    Implied 1 .tsx s (fun t => CpuIs t s.a s.sp s.y s.sp s.pc (nz s.p s.sp)) ∧
    Implied 1 .txs s (fun t => CpuIs t s.a s.x s.y s.x s.pc s.p) ∧
    Implied 1 .inx s (inX s (BitVec.ofNat 8 (s.x.toNat + 1))) ∧
    Implied 1 .iny s (inY s (BitVec.ofNat 8 (s.y.toNat + 1))) ∧
    Implied 1 .dex s (inX s (BitVec.ofNat 8 (s.x.toNat + 255))) ∧
    Implied 1 .dey s (inY s (BitVec.ofNat 8 (s.y.toNat + 255))) ∧
    Implied 1 .clc s (flagsOnly s { s.p with c := false }) ∧
    Implied 1 .sec s (flagsOnly s { s.p with c := true }) ∧
    Implied 1 .cli s (flagsOnly s { s.p with i := false }) ∧
    Implied 1 .sei s (flagsOnly s { s.p with i := true }) ∧
    Implied 1 .cld s (flagsOnly s { s.p with d := false }) ∧
    Implied 1 .sed s (flagsOnly s { s.p with d := true }) ∧
    Implied 1 .clv s (flagsOnly s { s.p with v := false })

/-- O27. ADC and SBC (0xEB included) in every form: the binary result with carry or borrow, C, V, N and Z, whatever D
is (R260, R261, R269, R424). -/
def Obligations.AdcAndSbcInEveryForm : Prop :=
  ∀ s : State,
    (∀ b : Byte, Reads (.adcIzx b) (.izx b) s (fun m => inAWith s (added s.a m s.p))) ∧
    (∀ b : Byte, Reads (.adcZp b) (.zp b) s (fun m => inAWith s (added s.a m s.p))) ∧
    (∀ v : Byte, Implied 0 (.adcImm v) s (inAWith s (added s.a v s.p))) ∧
    (∀ a : Addr, Reads (.adcAbs a) (.abs a) s (fun m => inAWith s (added s.a m s.p))) ∧
    (∀ b : Byte, Reads (.adcIzy b) (.izy b) s (fun m => inAWith s (added s.a m s.p))) ∧
    (∀ b : Byte, Reads (.adcZpx b) (.zpx b) s (fun m => inAWith s (added s.a m s.p))) ∧
    (∀ a : Addr, Reads (.adcAby a) (.aby a) s (fun m => inAWith s (added s.a m s.p))) ∧
    (∀ a : Addr, Reads (.adcAbx a) (.abx a) s (fun m => inAWith s (added s.a m s.p))) ∧
    (∀ b : Byte, Reads (.sbcIzx b) (.izx b) s (fun m => inAWith s (subtracted s.a m s.p))) ∧
    (∀ b : Byte, Reads (.sbcZp b) (.zp b) s (fun m => inAWith s (subtracted s.a m s.p))) ∧
    (∀ v : Byte, Implied 0 (.sbcImm v) s (inAWith s (subtracted s.a v s.p))) ∧
    (∀ v : Byte, Implied 0 (.sbcImmEB v) s (inAWith s (subtracted s.a v s.p))) ∧
    (∀ a : Addr, Reads (.sbcAbs a) (.abs a) s (fun m => inAWith s (subtracted s.a m s.p))) ∧
    (∀ b : Byte, Reads (.sbcIzy b) (.izy b) s (fun m => inAWith s (subtracted s.a m s.p))) ∧
    (∀ b : Byte, Reads (.sbcZpx b) (.zpx b) s (fun m => inAWith s (subtracted s.a m s.p))) ∧
    (∀ a : Addr, Reads (.sbcAby a) (.aby a) s (fun m => inAWith s (subtracted s.a m s.p))) ∧
    (∀ a : Addr, Reads (.sbcAbx a) (.abx a) s (fun m => inAWith s (subtracted s.a m s.p)))

/-- O28. ADC with carry-in c and then SBC of the same operand with carry-in 1 - c restores A, for every A, M and c
(R262, R260, R261). -/
def Obligations.SbcUndoesAdc : Prop :=
  ∀ (s : State) (m : Byte), ∃ t u, exec (.adcImm m) s = .next t ∧
    exec (.sbcImm m) (t.setP { t.p with c := !s.p.c }) = .next u ∧ u.a = s.a

/-- O29. INC and DEC complete in every form: the byte read, a tick, the byte plus or minus one written back, N and Z
from it (R195, R263, R264, R85). -/
def Obligations.IncAndDecModifyMemory : Prop :=
  ∀ s : State, s.inv = true →
    (∀ b : Byte,
      Modifies (.incZp b) (.zp b) s (fun m => BitVec.ofNat 8 (m.toNat + 1))
        (fun m => flagsOnly s (nz s.p (BitVec.ofNat 8 (m.toNat + 1))))) ∧
    (∀ a : Addr,
      Modifies (.incAbs a) (.abs a) s (fun m => BitVec.ofNat 8 (m.toNat + 1))
        (fun m => flagsOnly s (nz s.p (BitVec.ofNat 8 (m.toNat + 1))))) ∧
    (∀ b : Byte,
      Modifies (.incZpx b) (.zpx b) s (fun m => BitVec.ofNat 8 (m.toNat + 1))
        (fun m => flagsOnly s (nz s.p (BitVec.ofNat 8 (m.toNat + 1))))) ∧
    (∀ a : Addr,
      Modifies (.incAbx a) (.abx a) s (fun m => BitVec.ofNat 8 (m.toNat + 1))
        (fun m => flagsOnly s (nz s.p (BitVec.ofNat 8 (m.toNat + 1))))) ∧
    (∀ b : Byte,
      Modifies (.decZp b) (.zp b) s (fun m => BitVec.ofNat 8 (m.toNat + 255))
        (fun m => flagsOnly s (nz s.p (BitVec.ofNat 8 (m.toNat + 255))))) ∧
    (∀ a : Addr,
      Modifies (.decAbs a) (.abs a) s (fun m => BitVec.ofNat 8 (m.toNat + 255))
        (fun m => flagsOnly s (nz s.p (BitVec.ofNat 8 (m.toNat + 255))))) ∧
    (∀ b : Byte,
      Modifies (.decZpx b) (.zpx b) s (fun m => BitVec.ofNat 8 (m.toNat + 255))
        (fun m => flagsOnly s (nz s.p (BitVec.ofNat 8 (m.toNat + 255))))) ∧
    (∀ a : Addr,
      Modifies (.decAbx a) (.abx a) s (fun m => BitVec.ofNat 8 (m.toNat + 255))
        (fun m => flagsOnly s (nz s.p (BitVec.ofNat 8 (m.toNat + 255)))))

/-- O30. AND, ORA and EOR complete in every form with the bitwise result in A; BIT sets Z, N and V and writes no
register (R290, R291, R292, R293). -/
def Obligations.LogicalInstructions : Prop :=
  ∀ s : State,
    (∀ b : Byte, Reads (.andIzx b) (.izx b) s (fun m => inA s (s.a &&& m))) ∧
    (∀ b : Byte, Reads (.andZp b) (.zp b) s (fun m => inA s (s.a &&& m))) ∧
    (∀ v : Byte, Implied 0 (.andImm v) s (inA s (s.a &&& v))) ∧
    (∀ a : Addr, Reads (.andAbs a) (.abs a) s (fun m => inA s (s.a &&& m))) ∧
    (∀ b : Byte, Reads (.andIzy b) (.izy b) s (fun m => inA s (s.a &&& m))) ∧
    (∀ b : Byte, Reads (.andZpx b) (.zpx b) s (fun m => inA s (s.a &&& m))) ∧
    (∀ a : Addr, Reads (.andAby a) (.aby a) s (fun m => inA s (s.a &&& m))) ∧
    (∀ a : Addr, Reads (.andAbx a) (.abx a) s (fun m => inA s (s.a &&& m))) ∧
    (∀ b : Byte, Reads (.oraIzx b) (.izx b) s (fun m => inA s (s.a ||| m))) ∧
    (∀ b : Byte, Reads (.oraZp b) (.zp b) s (fun m => inA s (s.a ||| m))) ∧
    (∀ v : Byte, Implied 0 (.oraImm v) s (inA s (s.a ||| v))) ∧
    (∀ a : Addr, Reads (.oraAbs a) (.abs a) s (fun m => inA s (s.a ||| m))) ∧
    (∀ b : Byte, Reads (.oraIzy b) (.izy b) s (fun m => inA s (s.a ||| m))) ∧
    (∀ b : Byte, Reads (.oraZpx b) (.zpx b) s (fun m => inA s (s.a ||| m))) ∧
    (∀ a : Addr, Reads (.oraAby a) (.aby a) s (fun m => inA s (s.a ||| m))) ∧
    (∀ a : Addr, Reads (.oraAbx a) (.abx a) s (fun m => inA s (s.a ||| m))) ∧
    (∀ b : Byte, Reads (.eorIzx b) (.izx b) s (fun m => inA s (s.a ^^^ m))) ∧
    (∀ b : Byte, Reads (.eorZp b) (.zp b) s (fun m => inA s (s.a ^^^ m))) ∧
    (∀ v : Byte, Implied 0 (.eorImm v) s (inA s (s.a ^^^ v))) ∧
    (∀ a : Addr, Reads (.eorAbs a) (.abs a) s (fun m => inA s (s.a ^^^ m))) ∧
    (∀ b : Byte, Reads (.eorIzy b) (.izy b) s (fun m => inA s (s.a ^^^ m))) ∧
    (∀ b : Byte, Reads (.eorZpx b) (.zpx b) s (fun m => inA s (s.a ^^^ m))) ∧
    (∀ a : Addr, Reads (.eorAby a) (.aby a) s (fun m => inA s (s.a ^^^ m))) ∧
    (∀ a : Addr, Reads (.eorAbx a) (.abx a) s (fun m => inA s (s.a ^^^ m))) ∧
    (∀ b : Byte, Reads (.bitZp b) (.zp b) s (fun m => flagsOnly s (bitFlags s.a m s.p))) ∧
    (∀ a : Addr, Reads (.bitAbs a) (.abs a) s (fun m => flagsOnly s (bitFlags s.a m s.p)))

/-- O31. ASL, LSR, ROL and ROR complete on A and in every memory form: the moved byte, C the bit moved out, N and Z
(R195, R310, R311, R312, R313). -/
def Obligations.ShiftsAndRotates : Prop :=
  ∀ s : State, s.inv = true →
    Implied 1 .aslAcc s
      (CpuIs · (movedLeft s.a false) s.x s.y s.sp s.pc (nz (carry s.p (top s.a)) (movedLeft s.a false))) ∧
    (∀ b : Byte,
      Modifies (.aslZp b) (.zp b) s (movedLeft · false)
        (fun m => flagsOnly s (nz (carry s.p (top m)) (movedLeft m false)))) ∧
    (∀ a : Addr,
      Modifies (.aslAbs a) (.abs a) s (movedLeft · false)
        (fun m => flagsOnly s (nz (carry s.p (top m)) (movedLeft m false)))) ∧
    (∀ b : Byte,
      Modifies (.aslZpx b) (.zpx b) s (movedLeft · false)
        (fun m => flagsOnly s (nz (carry s.p (top m)) (movedLeft m false)))) ∧
    (∀ a : Addr,
      Modifies (.aslAbx a) (.abx a) s (movedLeft · false)
        (fun m => flagsOnly s (nz (carry s.p (top m)) (movedLeft m false)))) ∧
    Implied 1 .lsrAcc s
      (CpuIs · (movedRight s.a false) s.x s.y s.sp s.pc (nz (carry s.p (bottom s.a)) (movedRight s.a false))) ∧
    (∀ b : Byte,
      Modifies (.lsrZp b) (.zp b) s (movedRight · false)
        (fun m => flagsOnly s (nz (carry s.p (bottom m)) (movedRight m false)))) ∧
    (∀ a : Addr,
      Modifies (.lsrAbs a) (.abs a) s (movedRight · false)
        (fun m => flagsOnly s (nz (carry s.p (bottom m)) (movedRight m false)))) ∧
    (∀ b : Byte,
      Modifies (.lsrZpx b) (.zpx b) s (movedRight · false)
        (fun m => flagsOnly s (nz (carry s.p (bottom m)) (movedRight m false)))) ∧
    (∀ a : Addr,
      Modifies (.lsrAbx a) (.abx a) s (movedRight · false)
        (fun m => flagsOnly s (nz (carry s.p (bottom m)) (movedRight m false)))) ∧
    Implied 1 .rolAcc s
      (CpuIs · (movedLeft s.a s.p.c) s.x s.y s.sp s.pc (nz (carry s.p (top s.a)) (movedLeft s.a s.p.c))) ∧
    (∀ b : Byte,
      Modifies (.rolZp b) (.zp b) s (movedLeft · s.p.c)
        (fun m => flagsOnly s (nz (carry s.p (top m)) (movedLeft m s.p.c)))) ∧
    (∀ a : Addr,
      Modifies (.rolAbs a) (.abs a) s (movedLeft · s.p.c)
        (fun m => flagsOnly s (nz (carry s.p (top m)) (movedLeft m s.p.c)))) ∧
    (∀ b : Byte,
      Modifies (.rolZpx b) (.zpx b) s (movedLeft · s.p.c)
        (fun m => flagsOnly s (nz (carry s.p (top m)) (movedLeft m s.p.c)))) ∧
    (∀ a : Addr,
      Modifies (.rolAbx a) (.abx a) s (movedLeft · s.p.c)
        (fun m => flagsOnly s (nz (carry s.p (top m)) (movedLeft m s.p.c)))) ∧
    Implied 1 .rorAcc s
      (CpuIs · (movedRight s.a s.p.c) s.x s.y s.sp s.pc (nz (carry s.p (bottom s.a)) (movedRight s.a s.p.c))) ∧
    (∀ b : Byte,
      Modifies (.rorZp b) (.zp b) s (movedRight · s.p.c)
        (fun m => flagsOnly s (nz (carry s.p (bottom m)) (movedRight m s.p.c)))) ∧
    (∀ a : Addr,
      Modifies (.rorAbs a) (.abs a) s (movedRight · s.p.c)
        (fun m => flagsOnly s (nz (carry s.p (bottom m)) (movedRight m s.p.c)))) ∧
    (∀ b : Byte,
      Modifies (.rorZpx b) (.zpx b) s (movedRight · s.p.c)
        (fun m => flagsOnly s (nz (carry s.p (bottom m)) (movedRight m s.p.c)))) ∧
    (∀ a : Addr,
      Modifies (.rorAbx a) (.abx a) s (movedRight · s.p.c)
        (fun m => flagsOnly s (nz (carry s.p (bottom m)) (movedRight m s.p.c))))

/-- O32. CMP, CPX and CPY complete in every form with C the unsigned order, Z equality, N bit 7 of the difference
(R330, R331, R332, R333). -/
def Obligations.CompareInstructions : Prop :=
  ∀ s : State,
    (∀ b : Byte, Reads (.cmpIzx b) (.izx b) s (fun m => flagsOnly s (compared s.a m s.p))) ∧
    (∀ b : Byte, Reads (.cmpZp b) (.zp b) s (fun m => flagsOnly s (compared s.a m s.p))) ∧
    (∀ v : Byte, Implied 0 (.cmpImm v) s (flagsOnly s (compared s.a v s.p))) ∧
    (∀ a : Addr, Reads (.cmpAbs a) (.abs a) s (fun m => flagsOnly s (compared s.a m s.p))) ∧
    (∀ b : Byte, Reads (.cmpIzy b) (.izy b) s (fun m => flagsOnly s (compared s.a m s.p))) ∧
    (∀ b : Byte, Reads (.cmpZpx b) (.zpx b) s (fun m => flagsOnly s (compared s.a m s.p))) ∧
    (∀ a : Addr, Reads (.cmpAby a) (.aby a) s (fun m => flagsOnly s (compared s.a m s.p))) ∧
    (∀ a : Addr, Reads (.cmpAbx a) (.abx a) s (fun m => flagsOnly s (compared s.a m s.p))) ∧
    (∀ v : Byte, Implied 0 (.cpxImm v) s (flagsOnly s (compared s.x v s.p))) ∧
    (∀ b : Byte, Reads (.cpxZp b) (.zp b) s (fun m => flagsOnly s (compared s.x m s.p))) ∧
    (∀ a : Addr, Reads (.cpxAbs a) (.abs a) s (fun m => flagsOnly s (compared s.x m s.p))) ∧
    (∀ v : Byte, Implied 0 (.cpyImm v) s (flagsOnly s (compared s.y v s.p))) ∧
    (∀ b : Byte, Reads (.cpyZp b) (.zp b) s (fun m => flagsOnly s (compared s.y m s.p))) ∧
    (∀ a : Addr, Reads (.cpyAbs a) (.abs a) s (fun m => flagsOnly s (compared s.y m s.p)))

/-- O33. The eight branches: the target is the next instruction plus the signed byte, one tick taken, two to another
page (R350, R351, R352, R353, R354, R355, R356, R357, R358). -/
def Obligations.BranchesTakeOrSkip : Prop :=
  ∀ (s : State) (d : Byte),
    Branches (.bpl d) (!s.p.n) d s ∧
    Branches (.bmi d) (s.p.n) d s ∧
    Branches (.bvc d) (!s.p.v) d s ∧
    Branches (.bvs d) (s.p.v) d s ∧
    Branches (.bcc d) (!s.p.c) d s ∧
    Branches (.bcs d) (s.p.c) d s ∧
    Branches (.bne d) (!s.p.z) d s ∧
    Branches (.beq d) (s.p.z) d s

/-- O34. JMP loads the pc from its operand, or from the pointer it names, whose second byte never leaves the page
(R360, R361). -/
def Obligations.JumpsLoadThePc : Prop :=
  ∀ (s : State) (a : Addr),
    Implied 0 (.jmpAbs a) s (fun t => CpuIs t s.a s.x s.y s.sp a s.p) ∧
    (let lo := memRead a s;
    let hi := memRead (BitVec.ofNat 16 (a.toNat / 256 * 256 + (a.toNat + 1) % 256)) lo.2;
    ∃ t, exec (.jmpInd a) s = .next t ∧ CpuIs t s.a s.x s.y s.sp (word hi.1 lo.1) s.p ∧ DevicesAs hi.2 t ∧
      OnlyRead s t)

/-- O35. JSR pushes its last byte's address and jumps; RTS pulls a word and adds one; RTS after JSR returns (R362,
R363, R82, R35). -/
def Obligations.JsrPushesAndRtsReturns : Prop :=
  ∀ (s : State) (lo : Byte), s.inv = true →
    (let hi := memRead s.pc (pushWord s.pc (tick s));
      ∃ t, exec (.jsr lo) s = .next t ∧ CpuIs t s.a s.x s.y (s.sp - 2#8) (word hi.1 lo) s.p ∧
        BytesAfter [(stackAddr (s.sp - 1#8), lo8 s.pc), (stackAddr s.sp, hi8 s.pc)] s t ∧
        DevicesAs hi.2 t ∧ Fixed s t ∧ t.mapper = s.mapper ∧ SamePpuMemories s t) ∧
    Implied 5 .rts s (fun t => CpuIs t s.a s.x s.y (s.sp + 2#8)
      (word (s.ramAt (0x100 + (s.sp + 2#8).toNat)) (s.ramAt (0x100 + (s.sp + 1#8).toNat)) + 1#16) s.p) ∧
    (∃ t u, exec (.jsr lo) s = .next t ∧ exec .rts t = .next u ∧ u.pc = s.pc + 1#16 ∧ u.sp = s.sp)

/-- O36. PHA, PHP, PLA and PLP complete with the byte pushed or pulled, S moved by one, and their flags (R380, R381,
R382, R383, R44, R45). -/
def Obligations.StackInstructions : Prop :=
  ∀ s : State, s.inv = true →
    (∃ t, exec .pha s = .next t ∧ CpuIs t s.a s.x s.y (s.sp - 1#8) s.pc s.p ∧
      BytesAfter [(stackAddr s.sp, s.a)] s t ∧ Waited 2 s t) ∧
    (∃ t, exec .php s = .next t ∧ CpuIs t s.a s.x s.y (s.sp - 1#8) s.pc s.p ∧
      BytesAfter [(stackAddr s.sp, s.p.pack true)] s t ∧ Waited 2 s t) ∧
    (let m := s.ramAt (0x100 + (s.sp + 1#8).toNat);
      Implied 3 .pla s (fun t => CpuIs t m s.x s.y (s.sp + 1#8) s.pc (nz s.p m)) ∧
      Implied 3 .plp s (fun t => CpuIs t s.a s.x s.y (s.sp + 1#8) s.pc (unpack m)))

/-- O37. BRK skips its padding byte, pushes the return address and pack(1), sets I and loads the pc from 0xFFFE (R400,
R44, R82). -/
def Obligations.BreakEntersTheIrqVector : Prop :=
  ∀ s : State, s.inv = true →
    let ret := s.pc - 1#16 + s.params.brkReturnOffset
    ∃ t, exec .brk s = .next t ∧
      CpuIs t s.a s.x s.y (s.sp - 3#8) (word (s.mapper.prgRead 0xFFFF#16) (s.mapper.prgRead 0xFFFE#16))
        { s.p with i := true } ∧
      BytesAfter
        [(stackAddr (s.sp - 2#8), s.p.pack true), (stackAddr (s.sp - 1#8), lo8 ret), (stackAddr s.sp, hi8 ret)] s t ∧
      Waited 5 (memRead s.pc s).2 t

/-- O38. RTI pulls the flags and then the pc, with no + 1, S + 3, and nothing else but 5 ticks after the fetch (R401).
-/
def Obligations.ReturnFromInterruptPullsTheFrame : Prop :=
  ∀ s : State,
    let at' := fun (k : Byte) => s.ramAt (0x100 + (s.sp + k).toNat)
    Implied 5 .rti s (fun t => CpuIs t s.a s.x s.y (s.sp + 3#8) (word (at' 3#8) (at' 2#8)) (unpack (at' 1#8)))

/-- O39. NOP and its 27 unofficial forms complete with no register, flag or byte written; the memory forms perform
their read (R402, R421). -/
def Obligations.NopsOnlyReadAndTick : Prop :=
  ∀ s : State,
    Implied 1 .nop s (flagsOnly s s.p) ∧
    (∀ b : Byte, Reads (.nop04 b) (.zp b) s (fun _ => flagsOnly s s.p)) ∧
    (∀ a : Addr, Reads (.nop0C a) (.abs a) s (fun _ => flagsOnly s s.p)) ∧
    (∀ b : Byte, Reads (.nop14 b) (.zpx b) s (fun _ => flagsOnly s s.p)) ∧
    Implied 1 .nop1A s (flagsOnly s s.p) ∧
    (∀ a : Addr, Reads (.nop1C a) (.abx a) s (fun _ => flagsOnly s s.p)) ∧
    (∀ b : Byte, Reads (.nop34 b) (.zpx b) s (fun _ => flagsOnly s s.p)) ∧
    Implied 1 .nop3A s (flagsOnly s s.p) ∧
    (∀ a : Addr, Reads (.nop3C a) (.abx a) s (fun _ => flagsOnly s s.p)) ∧
    (∀ b : Byte, Reads (.nop44 b) (.zp b) s (fun _ => flagsOnly s s.p)) ∧
    (∀ b : Byte, Reads (.nop54 b) (.zpx b) s (fun _ => flagsOnly s s.p)) ∧
    Implied 1 .nop5A s (flagsOnly s s.p) ∧
    (∀ a : Addr, Reads (.nop5C a) (.abx a) s (fun _ => flagsOnly s s.p)) ∧
    (∀ b : Byte, Reads (.nop64 b) (.zp b) s (fun _ => flagsOnly s s.p)) ∧
    (∀ b : Byte, Reads (.nop74 b) (.zpx b) s (fun _ => flagsOnly s s.p)) ∧
    Implied 1 .nop7A s (flagsOnly s s.p) ∧
    (∀ a : Addr, Reads (.nop7C a) (.abx a) s (fun _ => flagsOnly s s.p)) ∧
    (∀ v : Byte, Implied 0 (.nop80 v) s (flagsOnly s s.p)) ∧
    (∀ v : Byte, Implied 0 (.nop82 v) s (flagsOnly s s.p)) ∧
    (∀ v : Byte, Implied 0 (.nop89 v) s (flagsOnly s s.p)) ∧
    (∀ v : Byte, Implied 0 (.nopC2 v) s (flagsOnly s s.p)) ∧
    (∀ b : Byte, Reads (.nopD4 b) (.zpx b) s (fun _ => flagsOnly s s.p)) ∧
    Implied 1 .nopDA s (flagsOnly s s.p) ∧
    (∀ a : Addr, Reads (.nopDC a) (.abx a) s (fun _ => flagsOnly s s.p)) ∧
    (∀ v : Byte, Implied 0 (.nopE2 v) s (flagsOnly s s.p)) ∧
    (∀ b : Byte, Reads (.nopF4 b) (.zpx b) s (fun _ => flagsOnly s s.p)) ∧
    Implied 1 .nopFA s (flagsOnly s s.p) ∧
    (∀ a : Addr, Reads (.nopFC a) (.abx a) s (fun _ => flagsOnly s s.p))

/-- O40. DCP ISB SLO RLA SRE RRA complete in every form: the modified byte stored, then the legal operation on A with
it (R195, R425, R426, R427, R428, R429, R430). -/
def Obligations.CombinedReadModifyWrites : Prop :=
  ∀ s : State, s.inv = true →
    (∀ b : Byte,
      Modifies (.dcpIzx b) (.izx b) s (fun m => BitVec.ofNat 8 (m.toNat + 255))
        (fun m => flagsOnly s (compared s.a (BitVec.ofNat 8 (m.toNat + 255)) s.p))) ∧
    (∀ b : Byte,
      Modifies (.dcpZp b) (.zp b) s (fun m => BitVec.ofNat 8 (m.toNat + 255))
        (fun m => flagsOnly s (compared s.a (BitVec.ofNat 8 (m.toNat + 255)) s.p))) ∧
    (∀ a : Addr,
      Modifies (.dcpAbs a) (.abs a) s (fun m => BitVec.ofNat 8 (m.toNat + 255))
        (fun m => flagsOnly s (compared s.a (BitVec.ofNat 8 (m.toNat + 255)) s.p))) ∧
    (∀ b : Byte,
      Modifies (.dcpIzy b) (.izy b) s (fun m => BitVec.ofNat 8 (m.toNat + 255))
        (fun m => flagsOnly s (compared s.a (BitVec.ofNat 8 (m.toNat + 255)) s.p))) ∧
    (∀ b : Byte,
      Modifies (.dcpZpx b) (.zpx b) s (fun m => BitVec.ofNat 8 (m.toNat + 255))
        (fun m => flagsOnly s (compared s.a (BitVec.ofNat 8 (m.toNat + 255)) s.p))) ∧
    (∀ a : Addr,
      Modifies (.dcpAby a) (.aby a) s (fun m => BitVec.ofNat 8 (m.toNat + 255))
        (fun m => flagsOnly s (compared s.a (BitVec.ofNat 8 (m.toNat + 255)) s.p))) ∧
    (∀ a : Addr,
      Modifies (.dcpAbx a) (.abx a) s (fun m => BitVec.ofNat 8 (m.toNat + 255))
        (fun m => flagsOnly s (compared s.a (BitVec.ofNat 8 (m.toNat + 255)) s.p))) ∧
    (∀ b : Byte,
      Modifies (.isbIzx b) (.izx b) s (fun m => BitVec.ofNat 8 (m.toNat + 1))
        (fun m => inAWith s (subtracted s.a (BitVec.ofNat 8 (m.toNat + 1)) s.p))) ∧
    (∀ b : Byte,
      Modifies (.isbZp b) (.zp b) s (fun m => BitVec.ofNat 8 (m.toNat + 1))
        (fun m => inAWith s (subtracted s.a (BitVec.ofNat 8 (m.toNat + 1)) s.p))) ∧
    (∀ a : Addr,
      Modifies (.isbAbs a) (.abs a) s (fun m => BitVec.ofNat 8 (m.toNat + 1))
        (fun m => inAWith s (subtracted s.a (BitVec.ofNat 8 (m.toNat + 1)) s.p))) ∧
    (∀ b : Byte,
      Modifies (.isbIzy b) (.izy b) s (fun m => BitVec.ofNat 8 (m.toNat + 1))
        (fun m => inAWith s (subtracted s.a (BitVec.ofNat 8 (m.toNat + 1)) s.p))) ∧
    (∀ b : Byte,
      Modifies (.isbZpx b) (.zpx b) s (fun m => BitVec.ofNat 8 (m.toNat + 1))
        (fun m => inAWith s (subtracted s.a (BitVec.ofNat 8 (m.toNat + 1)) s.p))) ∧
    (∀ a : Addr,
      Modifies (.isbAby a) (.aby a) s (fun m => BitVec.ofNat 8 (m.toNat + 1))
        (fun m => inAWith s (subtracted s.a (BitVec.ofNat 8 (m.toNat + 1)) s.p))) ∧
    (∀ a : Addr,
      Modifies (.isbAbx a) (.abx a) s (fun m => BitVec.ofNat 8 (m.toNat + 1))
        (fun m => inAWith s (subtracted s.a (BitVec.ofNat 8 (m.toNat + 1)) s.p))) ∧
    (∀ b : Byte,
      Modifies (.sloIzx b) (.izx b) s (movedLeft · false)
        (fun m => inAWith s (orInto s.a (movedLeft m false) (carry s.p (top m))))) ∧
    (∀ b : Byte,
      Modifies (.sloZp b) (.zp b) s (movedLeft · false)
        (fun m => inAWith s (orInto s.a (movedLeft m false) (carry s.p (top m))))) ∧
    (∀ a : Addr,
      Modifies (.sloAbs a) (.abs a) s (movedLeft · false)
        (fun m => inAWith s (orInto s.a (movedLeft m false) (carry s.p (top m))))) ∧
    (∀ b : Byte,
      Modifies (.sloIzy b) (.izy b) s (movedLeft · false)
        (fun m => inAWith s (orInto s.a (movedLeft m false) (carry s.p (top m))))) ∧
    (∀ b : Byte,
      Modifies (.sloZpx b) (.zpx b) s (movedLeft · false)
        (fun m => inAWith s (orInto s.a (movedLeft m false) (carry s.p (top m))))) ∧
    (∀ a : Addr,
      Modifies (.sloAby a) (.aby a) s (movedLeft · false)
        (fun m => inAWith s (orInto s.a (movedLeft m false) (carry s.p (top m))))) ∧
    (∀ a : Addr,
      Modifies (.sloAbx a) (.abx a) s (movedLeft · false)
        (fun m => inAWith s (orInto s.a (movedLeft m false) (carry s.p (top m))))) ∧
    (∀ b : Byte,
      Modifies (.rlaIzx b) (.izx b) s (movedLeft · s.p.c)
        (fun m => inAWith s (andInto s.a (movedLeft m s.p.c) (carry s.p (top m))))) ∧
    (∀ b : Byte,
      Modifies (.rlaZp b) (.zp b) s (movedLeft · s.p.c)
        (fun m => inAWith s (andInto s.a (movedLeft m s.p.c) (carry s.p (top m))))) ∧
    (∀ a : Addr,
      Modifies (.rlaAbs a) (.abs a) s (movedLeft · s.p.c)
        (fun m => inAWith s (andInto s.a (movedLeft m s.p.c) (carry s.p (top m))))) ∧
    (∀ b : Byte,
      Modifies (.rlaIzy b) (.izy b) s (movedLeft · s.p.c)
        (fun m => inAWith s (andInto s.a (movedLeft m s.p.c) (carry s.p (top m))))) ∧
    (∀ b : Byte,
      Modifies (.rlaZpx b) (.zpx b) s (movedLeft · s.p.c)
        (fun m => inAWith s (andInto s.a (movedLeft m s.p.c) (carry s.p (top m))))) ∧
    (∀ a : Addr,
      Modifies (.rlaAby a) (.aby a) s (movedLeft · s.p.c)
        (fun m => inAWith s (andInto s.a (movedLeft m s.p.c) (carry s.p (top m))))) ∧
    (∀ a : Addr,
      Modifies (.rlaAbx a) (.abx a) s (movedLeft · s.p.c)
        (fun m => inAWith s (andInto s.a (movedLeft m s.p.c) (carry s.p (top m))))) ∧
    (∀ b : Byte,
      Modifies (.sreIzx b) (.izx b) s (movedRight · false)
        (fun m => inAWith s (eorInto s.a (movedRight m false) (carry s.p (bottom m))))) ∧
    (∀ b : Byte,
      Modifies (.sreZp b) (.zp b) s (movedRight · false)
        (fun m => inAWith s (eorInto s.a (movedRight m false) (carry s.p (bottom m))))) ∧
    (∀ a : Addr,
      Modifies (.sreAbs a) (.abs a) s (movedRight · false)
        (fun m => inAWith s (eorInto s.a (movedRight m false) (carry s.p (bottom m))))) ∧
    (∀ b : Byte,
      Modifies (.sreIzy b) (.izy b) s (movedRight · false)
        (fun m => inAWith s (eorInto s.a (movedRight m false) (carry s.p (bottom m))))) ∧
    (∀ b : Byte,
      Modifies (.sreZpx b) (.zpx b) s (movedRight · false)
        (fun m => inAWith s (eorInto s.a (movedRight m false) (carry s.p (bottom m))))) ∧
    (∀ a : Addr,
      Modifies (.sreAby a) (.aby a) s (movedRight · false)
        (fun m => inAWith s (eorInto s.a (movedRight m false) (carry s.p (bottom m))))) ∧
    (∀ a : Addr,
      Modifies (.sreAbx a) (.abx a) s (movedRight · false)
        (fun m => inAWith s (eorInto s.a (movedRight m false) (carry s.p (bottom m))))) ∧
    (∀ b : Byte,
      Modifies (.rraIzx b) (.izx b) s (movedRight · s.p.c)
        (fun m => inAWith s (added s.a (movedRight m s.p.c) (carry s.p (bottom m))))) ∧
    (∀ b : Byte,
      Modifies (.rraZp b) (.zp b) s (movedRight · s.p.c)
        (fun m => inAWith s (added s.a (movedRight m s.p.c) (carry s.p (bottom m))))) ∧
    (∀ a : Addr,
      Modifies (.rraAbs a) (.abs a) s (movedRight · s.p.c)
        (fun m => inAWith s (added s.a (movedRight m s.p.c) (carry s.p (bottom m))))) ∧
    (∀ b : Byte,
      Modifies (.rraIzy b) (.izy b) s (movedRight · s.p.c)
        (fun m => inAWith s (added s.a (movedRight m s.p.c) (carry s.p (bottom m))))) ∧
    (∀ b : Byte,
      Modifies (.rraZpx b) (.zpx b) s (movedRight · s.p.c)
        (fun m => inAWith s (added s.a (movedRight m s.p.c) (carry s.p (bottom m))))) ∧
    (∀ a : Addr,
      Modifies (.rraAby a) (.aby a) s (movedRight · s.p.c)
        (fun m => inAWith s (added s.a (movedRight m s.p.c) (carry s.p (bottom m))))) ∧
    (∀ a : Addr,
      Modifies (.rraAbx a) (.abx a) s (movedRight · s.p.c)
        (fun m => inAWith s (added s.a (movedRight m s.p.c) (carry s.p (bottom m)))))

/-- O41. The 25 undefined opcodes, and those UNOFFICIAL_SET leaves out: one tick and a diagnostic under nop, a fault
under the fault policy (R138, R420, R440, R441, R442). -/
def Obligations.UndefinedOpcodesFollowTheirPolicy : Prop :=
  ∀ s : State,
    Undefined .undef02 0x02#8 s ∧
    Undefined .undef0B 0x0B#8 s ∧
    Undefined .undef12 0x12#8 s ∧
    Undefined .undef22 0x22#8 s ∧
    Undefined .undef2B 0x2B#8 s ∧
    Undefined .undef32 0x32#8 s ∧
    Undefined .undef42 0x42#8 s ∧
    Undefined .undef4B 0x4B#8 s ∧
    Undefined .undef52 0x52#8 s ∧
    Undefined .undef62 0x62#8 s ∧
    Undefined .undef6B 0x6B#8 s ∧
    Undefined .undef72 0x72#8 s ∧
    Undefined .undef8B 0x8B#8 s ∧
    Undefined .undef92 0x92#8 s ∧
    Undefined .undef93 0x93#8 s ∧
    Undefined .undef9B 0x9B#8 s ∧
    Undefined .undef9C 0x9C#8 s ∧
    Undefined .undef9E 0x9E#8 s ∧
    Undefined .undef9F 0x9F#8 s ∧
    Undefined .undefAB 0xAB#8 s ∧
    Undefined .undefB2 0xB2#8 s ∧
    Undefined .undefBB 0xBB#8 s ∧
    Undefined .undefCB 0xCB#8 s ∧
    Undefined .undefD2 0xD2#8 s ∧
    Undefined .undefF2 0xF2#8 s ∧
    (s.cartLoaded = true → s.nmiPending = false → s.irqDue = false →
      let f := fetchByte s.opened
      s.params.removes f.1 = true →
        f.2.pc = s.pc + 1#16 ∧ f.2.remainingCycles = s.opened.remainingCycles - 1 ∧
        (s.params.undefinedPolicy = .nop → ActsAsNoOp (step s) f.1 f.2) ∧
        (s.params.undefinedPolicy = .fault → step s = .fault (.undefinedOpcode f.1 s.pc)))

/-- O42. Writes of PPUCTRL, PPUMASK, PPUSTATUS, OAMADDR and OAMDATA at every mirror of their address (R92, R530, R534,
R535, R536, R537, R544). -/
def Obligations.PpuRegisterWrites : Prop :=
  ∀ (s : State) (a : Addr) (d : Byte), 0x2000 ≤ a.toNat → a.toNat < 0x4000 →
    (a.toNat % 8 = 0 → ∃ t', busWrite a d s = s.setPpu { s.ppu with ctrl := d, t := t' } ∧
      t'.toNat / 4096 = s.ppu.t.toNat / 4096 ∧ t'.toNat / 1024 % 4 = d.toNat % 4 ∧
      t'.toNat % 1024 = s.ppu.t.toNat % 1024) ∧
    (a.toNat % 8 = 1 → busWrite a d s = s.setPpu { s.ppu with mask := d }) ∧
    (a.toNat % 8 = 2 → busWrite a d s = s) ∧
    (a.toNat % 8 = 3 → busWrite a d s = s.setPpu { s.ppu with oamAddr := d }) ∧
    (a.toNat % 8 = 4 → ∃ o,
      busWrite a d s =
        s.setPpu { s.ppu with oam := o, oamAddr := BitVec.ofNat 8 (s.ppu.oamAddr.toNat + 1) } ∧
      ∀ k, (busWrite a d s).ppu.oamAt k = if k = s.ppu.oamAddr.toNat then d else s.ppu.oamAt k)

/-- O43. Reads of PPUSTATUS, OAMDATA and the write-only PPU registers at every mirror of their address (R92, R99,
R530, R532, R538, R544). -/
def Obligations.PpuRegisterReads : Prop :=
  ∀ (s : State) (a : Addr), 0x2000 ≤ a.toNat → a.toNat < 0x4000 →
    (a.toNat % 8 = 2 →
      (busRead a s).1.toNat / 128 = s.ppu.vblank.toNat ∧ (busRead a s).1.toNat / 64 % 2 = s.ppu.spr0hit.toNat ∧
      (busRead a s).1.toNat / 32 % 2 = s.ppu.sprOverflow.toNat ∧
      (busRead a s).2 = (s.setPpu { s.ppu with vblank := false, w := false }).countDraw) ∧
    (a.toNat % 8 = 4 → busRead a s = (s.ppu.oamAt s.ppu.oamAddr.toNat, s)) ∧
    (a.toNat % 8 ∈ [0, 1, 3, 5, 6] → (busRead a s).2 = s.countDraw)

/-- O44. The write pairs of PPUSCROLL and PPUADDR, at every mirror, fill t, fine X and v, sharing one toggle (R92,
R539, R540, R541, R554). -/
def Obligations.ScrollAndAddressWritePairs : Prop :=
  ∀ (s : State) (a a' b b' : Addr) (d e : Byte), AtPpu 5 a → AtPpu 5 a' → AtPpu 6 b → AtPpu 6 b' → s.ppu.w = false →
    (∃ t' x', busWrite a' e (busWrite a d s) = s.setPpu { s.ppu with t := t', fineX := x' } ∧
      t'.toNat % 32 = d.toNat / 8 ∧ x'.toNat = d.toNat % 8 ∧ t'.toNat / 32 % 32 = e.toNat / 8 ∧
      t'.toNat / 4096 = e.toNat % 8 ∧ t'.toNat / 1024 % 4 = s.ppu.t.toNat / 1024 % 4) ∧
    (busWrite b' e (busWrite b d s) =
      let t' := BitVec.ofNat 15 (d.toNat % 64 * 256 + e.toNat)
      s.setPpu { s.ppu with t := t', v := t' }) ∧
    (∃ t' x', busWrite b e (busWrite a d s) = s.setPpu { s.ppu with t := t', v := t', fineX := x' } ∧
      t'.toNat = s.ppu.t.toNat / 256 * 256 + e.toNat ∧ x'.toNat = d.toNat % 8) ∧
    (∃ t', busWrite a e (busWrite b d s) = s.setPpu { s.ppu with t := t' } ∧
      t'.toNat % 32 = s.ppu.t.toNat % 32 ∧ t'.toNat / 32 % 32 = e.toNat / 8 ∧ t'.toNat / 4096 = e.toNat % 8 ∧
      t'.toNat / 1024 % 4 = d.toNat / 4 % 4) ∧
    (busWrite a d s).ppu.w = true ∧ (busWrite b d s).ppu.w = true

/-- O45. A PPUDATA write stores at v in PPU space, seen through every alias and nowhere else, and steps v by 1 or 32
(R92, R542, R550, R551, R552, R627). -/
def Obligations.PpuDataWriteStoresAndSteps : Prop :=
  ∀ (s : State) (c : Addr) (d : Byte), AtPpu 7 c →
    let a : VAddr := BitVec.ofNat 14 s.ppu.v.toNat
    let t := busWrite c d s
    (∀ b : VAddr, ppuRead t.mapper t.ppu b =
      if videoCell s.mapper b = videoCell s.mapper a then
        (if a.toNat < 0x2000 then (if s.mapper.chrIsRam then d else ppuRead s.mapper s.ppu b)
          else if a.toNat < 0x3F00 then d else BitVec.ofNat 8 (d.toNat % 64))
      else ppuRead s.mapper s.ppu b) ∧
    t.ppu.v = BitVec.ofNat 15 (s.ppu.v.toNat + if s.ppu.ctrl.toNat / 4 % 2 = 1 then 32 else 1) ∧
    (∃ n p q, t = (s.setPpu { s.ppu with v := t.ppu.v, ciram := n, palette := p }).setMapper { s.mapper with chr := q })

/-- O46. A PPUDATA read answers the buffer below the palette and the palette entry above, refills the buffer, steps v
(R92, R543). -/
def Obligations.PpuDataReadIsBuffered : Prop :=
  ∀ (s : State) (c : Addr), AtPpu 7 c →
    let a : VAddr := BitVec.ofNat 14 s.ppu.v.toNat
    let v' : Scroll := BitVec.ofNat 15 (s.ppu.v.toNat + if s.ppu.ctrl.toNat / 4 % 2 = 1 then 32 else 1)
    (a.toNat < 0x3F00 →
      busRead c s = (s.ppu.readBuf, s.setPpu { s.ppu with readBuf := ppuRead s.mapper s.ppu a, v := v' })) ∧
    (0x3F00 ≤ a.toNat →
      (busRead c s).1.toNat % 64 = (ppuRead s.mapper s.ppu a).toNat ∧
      (busRead c s).2 =
        (s.setPpu { s.ppu with readBuf := ppuRead s.mapper s.ppu (a - 0x1000#14), v := v' }).countDraw)

/-- O47. The nametable and palette indexes in the spec's formulas, and the mirroring round trip through PPUDATA (R551,
R552, R553). -/
def Obligations.PpuAddressFolding : Prop :=
  (∀ n : Nat, n < 0x1000 →
      ntIndex .vertical n = n &&& 0x07FF ∧ ntIndex .horizontal n = ((n >>> 1) &&& 0x0400) ||| (n &&& 0x03FF) ∧
      ntIndex .singleLower n = n &&& 0x03FF ∧ ntIndex .singleUpper n = 0x0400 ||| (n &&& 0x03FF)) ∧
    (∀ (m : Mapper) (p : Ppu) (a b : VAddr),
      0x2000 ≤ a.toNat → a.toNat < 0x3F00 → 0x2000 ≤ b.toNat → b.toNat < 0x3F00 →
      ntIndex m.mirroring (a.toNat &&& 0x0FFF) = ntIndex m.mirroring (b.toNat &&& 0x0FFF) →
      ppuRead m p a = ppuRead m p b) ∧
    (∀ a : VAddr, palIndex a =
      if a.toNat &&& 0x1F &&& 0x13 = 0x10 then a.toNat &&& 0x1F &&& 0x0F else a.toNat &&& 0x1F) ∧
    (∀ (m : Mapper) (p : Ppu) (a : VAddr), 0x3F00 ≤ a.toNat → (ppuRead m p a).toNat < 64 ∧
      ∀ b : VAddr, 0x3F00 ≤ b.toNat → palIndex a = palIndex b → ppuRead m p a = ppuRead m p b) ∧
    (∀ (s : State) (d : Byte) (a : VAddr), 0x2000 ≤ a.toNat → a.toNat < 0x3000 → s.ppu.v.setWidth 14 = a →
      let t := busWrite 0x2007#16 d s
      (s.mapper.mirroring = .vertical → ppuRead t.mapper t.ppu (a ^^^ 0x0800#14) = d) ∧
      (s.mapper.mirroring = .horizontal → ppuRead t.mapper t.ppu (a ^^^ 0x0400#14) = d) ∧
      (s.mapper.mirroring = .vertical ∨ s.mapper.mirroring = .horizontal → a.toNat < 0x2F00 →
        ppuRead t.mapper t.ppu (a + 0x1000#14) = d) ∧
      (s.mapper.mirroring = .vertical → a = 0x2000#14 →
        ppuRead t.mapper t.ppu 0x2400#14 = ppuRead s.mapper s.ppu 0x2400#14) ∧
      (s.mapper.mirroring = .horizontal → a = 0x2000#14 →
        ppuRead t.mapper t.ppu 0x2800#14 = ppuRead s.mapper s.ppu 0x2800#14))

/-- O48. Dot (241, 1) sets vblank and, if enabled, the NMI latch; dot (261, 1) clears the status flags; no other dot
does (R566, R567). -/
def Obligations.VblankAndNmiAtTheirDots : Prop :=
  ∀ s : State,
    (s.ppu.scanline = 241 → s.ppu.dot = 1 →
      s.dotStep = { s with
        ppu := { s.ppu with vblank := true, dot := 2 }
        nmiPending := s.nmiPending || decide (128 ≤ s.ppu.ctrl.toNat) }) ∧
    (s.ppu.scanline = 261 → s.ppu.dot = 1 →
      s.dotStep.ppu.vblank = false ∧ s.dotStep.ppu.spr0hit = false ∧ s.dotStep.ppu.sprOverflow = false ∧
        s.dotStep.ppu.spCount = 0 ∧ s.dotStep.ppu.spZero = false ∧ s.dotStep.nmiPending = s.nmiPending) ∧
    (s.ppu.dot ≠ 1 ∨ s.ppu.scanline ≠ 241 ∧ s.ppu.scanline ≠ 261 →
      s.dotStep.ppu.vblank = s.ppu.vblank ∧ s.dotStep.nmiPending = s.nmiPending ∧
        (s.ppu.spr0hit = true → s.dotStep.ppu.spr0hit = true) ∧
        (s.ppu.sprOverflow = true → s.dotStep.ppu.sprOverflow = true))

/-- O49. 89,342 dots return to the same position with exactly one frame-complete event (R563). -/
def Obligations.FrameOfDotsReturnsOnce : Prop :=
  ∀ s : State, s.ppu.scanline ≤ 261 → s.ppu.dot ≤ 340 →
    (State.dotStep^[89342] s).ppu.scanline = s.ppu.scanline ∧ (State.dotStep^[89342] s).ppu.dot = s.ppu.dot ∧
      ∃ fb, (State.dotStep^[89342] s).events = .frameComplete fb :: s.events

/-- O50. With rendering disabled a dot changes the position, and at (241, 1) and (261, 1) the status flags, and
nothing else (R562, R566, R567, R593). -/
def Obligations.RenderingOffHoldsThePipeline : Prop :=
  ∀ (m : Mapper) (p : Ppu), p.mask &&& 0x18#8 = 0#8 →
    { p.step m with scanline := p.scanline, dot := p.dot } =
      if p.scanline = 241 ∧ p.dot = 1 then { p with vblank := true }
      else if p.scanline = 261 ∧ p.dot = 1 then
        { p with vblank := false, spr0hit := false, sprOverflow := false, spCount := 0, spZero := false }
      else p

/-- O51. A dot writes the pixel of its own position on a visible line with rendering enabled, in its colour, and no
other (R561, R562, R565, R572, R586, R590, R591, R592, R593). -/
def Obligations.OnePixelPerVisibleDot : Prop :=
  ∀ (m : Mapper) (p : Ppu),
    let q := p.step m
    (p.rendering = true → p.scanline < 240 → 1 ≤ p.dot → p.dot ≤ 256 →
      q.fb.colour p.scanline (p.dot - 1) = colourOf q (indexAt q (p.dot - 1))) ∧
    (∀ y x, ¬ (p.rendering = true ∧ p.scanline = y ∧ y < 240 ∧ p.dot = x + 1 ∧ x < 256) →
      q.fb.colour y x = p.fb.colour y x)

/-- O52. IncCoarseX, IncY and the two copies, field by field in whole numbers (R554, R568, R569). -/
def Obligations.ScrollIncrementsAndCopies : Prop :=
  ∀ v t : Scroll,
    ((incCoarseX v).toNat % 32 = (v.toNat % 32 + 1) % 32 ∧ (incCoarseX v).toNat / 32 % 32 = v.toNat / 32 % 32 ∧
      (incCoarseX v).toNat / 2048 = v.toNat / 2048 ∧
      (incCoarseX v).toNat / 1024 % 2 = (v.toNat / 1024 + if v.toNat % 32 = 31 then 1 else 0) % 2) ∧
    ((incY v).toNat % 32 = v.toNat % 32 ∧ (incY v).toNat / 1024 % 2 = v.toNat / 1024 % 2 ∧
      (incY v).toNat / 4096 = (v.toNat / 4096 + 1) % 8 ∧
      (incY v).toNat / 32 % 32 =
        (if v.toNat / 4096 < 7 then v.toNat / 32 % 32
          else if v.toNat / 32 % 32 = 29 then 0 else (v.toNat / 32 % 32 + 1) % 32) ∧
      (incY v).toNat / 2048 % 2 =
        (v.toNat / 2048 + if v.toNat / 4096 = 7 ∧ v.toNat / 32 % 32 = 29 then 1 else 0) % 2) ∧
    ((copyHorizontal v t).toNat % 32 = t.toNat % 32 ∧ (copyHorizontal v t).toNat / 1024 % 2 = t.toNat / 1024 % 2 ∧
      (copyHorizontal v t).toNat / 32 % 32 = v.toNat / 32 % 32 ∧ (copyHorizontal v t).toNat / 2048 = v.toNat / 2048) ∧
    ((copyVertical v t).toNat % 32 = v.toNat % 32 ∧ (copyVertical v t).toNat / 1024 % 2 = v.toNat / 1024 % 2 ∧
      (copyVertical v t).toNat / 32 % 32 = t.toNat / 32 % 32 ∧ (copyVertical v t).toNat / 2048 = t.toNat / 2048)

/-- O53. When a dot changes v: the coarse X, Y and copy dots of rendering lines, and no other (R561, R562, R565, R568,
R569). -/
def Obligations.ScrollRegisterSchedule : Prop :=
  ∀ (m : Mapper) (p : Ppu),
    let d := p.dot
    let line := p.scanline < 240 ∨ p.scanline = 261
    (p.step m).t = p.t ∧ (p.step m).fineX = p.fineX ∧
    (p.step m).v =
      if p.mask &&& 0x18#8 = 0#8 ∨ ¬ line then p.v
      else if d = 256 then incY (incCoarseX p.v)
      else if d = 257 then copyHorizontal p.v p.t
      else if p.scanline = 261 ∧ 280 ≤ d ∧ d ≤ 304 then copyVertical p.v p.t
      else if d % 8 = 0 ∧ (8 ≤ d ∧ d < 256 ∨ d = 328 ∨ d = 336) then incCoarseX p.v
      else p.v

/-- O54. The background pipeline: what a dot fetches into which latch, from which address, and when the shifters shift
and reload (R554, R561, R562, R564, R565, R570, R571). -/
def Obligations.BackgroundPipelineAtItsDots : Prop :=
  ∀ (m : Mapper) (p : Ppu),
    let v := p.v.toNat
    let d := p.dot
    let q := p.step m
    let on := p.rendering = true ∧ (p.scanline < 240 ∨ p.scanline = 261)
    let fetches := fun (r : Nat) => on ∧ (1 ≤ d ∧ d ≤ 256 ∨ 321 ≤ d ∧ d ≤ 336) ∧ d % 8 = r
    let shifts := on ∧ (2 ≤ d ∧ d ≤ 257 ∨ 322 ≤ d ∧ d ≤ 337)
    let reloads := on ∧ d % 8 = 1 ∧ (9 ≤ d ∧ d ≤ 257 ∨ d = 329 ∨ d = 337)
    let table := p.ctrl.toNat / 16 % 2 * 0x1000 + p.ntLatch.toNat * 16
    let group := BitVec.ofNat 14 (0x23C0 + v / 1024 % 4 * 1024 + v / 32 % 32 / 4 * 8 + v % 32 / 4)
    let tile := ppuRead m p (BitVec.ofNat 14 (0x2000 + v % 4096))
    let quadrant := BitVec.ofNat 2 ((ppuRead m p group).toNat / 2 ^ (v / 64 % 2 * 4 + v / 2 % 2 * 2))
    let low := ppuRead m p (BitVec.ofNat 14 (table + v / 4096))
    let high := ppuRead m p (BitVec.ofNat 14 (table + v / 4096 + 8))
    let Shifter := fun (new old : BitVec 16) (latch : Nat) =>
      ∃ n, (shifts → n = 2 * old.toNat % 65536) ∧ (¬ shifts → n = old.toNat) ∧
        (reloads → new.toNat = n / 256 * 256 + latch) ∧ (¬ reloads → new.toNat = n)
    ((fetches 1 → q.ntLatch = tile) ∧ (¬ fetches 1 → q.ntLatch = p.ntLatch) ∧
      (fetches 3 → q.atLatch = quadrant) ∧ (¬ fetches 3 → q.atLatch = p.atLatch) ∧
      (fetches 5 → q.ptLoLatch = low) ∧ (¬ fetches 5 → q.ptLoLatch = p.ptLoLatch) ∧
      (fetches 7 → q.ptHiLatch = high) ∧ (¬ fetches 7 → q.ptHiLatch = p.ptHiLatch)) ∧
    (Shifter q.bgLo p.bgLo p.ptLoLatch.toNat ∧ Shifter q.bgHi p.bgHi p.ptHiLatch.toNat ∧
      Shifter q.atLo p.atLo (255 * (p.atLatch.toNat % 2)) ∧ Shifter q.atHi p.atHi (255 * (p.atLatch.toNat / 2))) ∧
    (p.fetch m 1 = { p with ntLatch := tile } ∧ p.fetch m 3 = { p with atLatch := quadrant } ∧
      p.fetch m 5 = { p with ptLoLatch := low } ∧ p.fetch m 7 = { p with ptHiLatch := high } ∧
      ∀ r, r ∉ [1, 3, 5, 7] → p.fetch m r = p)

/-- O55. The sprite stages: the clear at dot 64, the evaluation at dot 256, the slot fetch at dot 320 of a visible
line, and nothing of them elsewhere (R561, R562, R567, R580, R581, R582, R583, R584). -/
def Obligations.SpriteStagesAtTheirDots : Prop :=
  ∀ (m : Mapper) (p : Ppu), p.secCount ≤ 8 →
    let q := p.step m
    let stage := fun (d : Nat) => p.rendering = true ∧ p.scanline < 240 ∧ p.dot = d
    let clears := p.scanline = 261 ∧ p.dot = 1
    let hit := inRange p
    (stage 64 → (∀ k, k < 32 → q.secAt k = 0xFF#8) ∧ q.secCount = 0 ∧ q.secHasZero = false) ∧
    (stage 256 →
      q.secCount = min 8 (p.secCount + hit.length) ∧
      q.sprOverflow = (p.sprOverflow || decide (8 < p.secCount + hit.length)) ∧
      q.secHasZero = (p.secHasZero || (decide (p.secCount < 8) && hit.contains 0)) ∧
      (∀ j k n, p.secCount + j < 8 → k < 4 → hit[j]? = some n →
        q.secAt (4 * (p.secCount + j) + k) = p.oamAt (4 * n + k)) ∧
      (∀ k, k < 4 * p.secCount → q.secAt k = p.secAt k)) ∧
    (stage 320 →
      q.spCount = p.secCount ∧ q.spZero = p.secHasZero ∧ q.slots.length = p.slots.length ∧
      (∀ i k, i < p.secCount → q.slots[i]? = some k → SlotLoaded m p i k) ∧
      (∀ i, p.secCount ≤ i → q.slots[i]? = p.slots[i]?)) ∧
    (¬ stage 64 → ¬ stage 256 → q.sec = p.sec ∧ q.secCount = p.secCount ∧ q.secHasZero = p.secHasZero) ∧
    (¬ stage 320 → q.slots = p.slots ∧ (¬ clears → q.spCount = p.spCount ∧ q.spZero = p.spZero)) ∧
    (¬ stage 256 → ¬ clears → q.sprOverflow = p.sprOverflow) ∧
    (clears → q.sprOverflow = false ∧ q.spCount = 0 ∧ q.spZero = false) ∧
    q.oam = p.oam

/-- O56. A dot raises the sprite-0 hit exactly at an opaque sprite-0 and background pixel, never at column 255, and
clears it only at (261, 1) (R561, R562, R567, R572, R586, R587). -/
def Obligations.SpriteZeroHitExactlyWhereItMay : Prop :=
  ∀ (m : Mapper) (p : Ppu),
    let x := p.dot - 1
    let q := p.step m
    q.spr0hit = true ↔
      p.spr0hit = true ∧ ¬ (p.scanline = 261 ∧ p.dot = 1) ∨
      p.scanline < 240 ∧ 1 ≤ p.dot ∧ p.dot ≤ 255 ∧ p.spZero = true ∧ 1 ≤ p.spCount ∧ spritesAt p x = true ∧
        (∃ k, p.slots.head? = some k ∧ slotAt k x ≠ 0) ∧ (backgroundAt q x).1 ≠ 0

/-- O57. Five serial writes set the register that the fifth address selects; a write with bit 7 set resets the shifter
(R631, R633). -/
def Obligations.SerialWritesSetOneRegister : Prop :=
  ∀ (s : State) (a0 a1 a2 a3 a4 : Addr) (d0 d1 d2 d3 d4 : Byte), s.mapper.kind = .mmc1 →
    (∀ a ∈ [a0, a1, a2, a3, a4], 0x8000 ≤ a.toNat) →
    (s.mapper.count = 0 → (∀ d ∈ [d0, d1, d2, d3, d4], d.toNat < 128) →
      let r : BitVec 5 := BitVec.ofNat 5
        (d0.toNat % 2 + 2 * (d1.toNat % 2) + 4 * (d2.toNat % 2) + 8 * (d3.toNat % 2) + 16 * (d4.toNat % 2))
      busWrite a4 d4 (busWrite a3 d3 (busWrite a2 d2 (busWrite a1 d1 (busWrite a0 d0 s)))) =
        s.setMapper
          (if a4.toNat < 0xA000 then
            { s.mapper with
              sr := 0#5, count := 0, control := r
              mirroring := [.singleLower, .singleUpper, .vertical, .horizontal].getD (r.toNat % 4) .horizontal }
          else if a4.toNat < 0xC000 then { s.mapper with sr := 0#5, count := 0, chr0 := r }
          else if a4.toNat < 0xE000 then { s.mapper with sr := 0#5, count := 0, chr1 := r }
          else { s.mapper with sr := 0#5, count := 0, prgBank := r })) ∧
    (128 ≤ d0.toNat →
      busWrite a0 d0 s =
        s.setMapper { s.mapper with sr := 0#5, count := 0, control := s.mapper.control ||| 0x0C#5 }) ∧
    (s.mapper.count = 0 →
      let t := busWrite 0xE000#16 0#8 (busWrite 0xE000#16 0#8 (busWrite 0xE000#16 0#8 (busWrite 0xE000#16 1#8
        (busWrite 0xE000#16 0#8 s))))
      t.mapper.prgBank = 2#5 ∧ t.mapper.control = s.mapper.control ∧ t.mapper.mirroring = s.mapper.mirroring)

/-- O58. What 0x8000-0xFFFF reads: NROM modulo its size, MMC1 by its PRG mode and bank (R625, R630, R635). -/
def Obligations.ProgramBanksAreRead : Prop :=
  ∀ (s : State) (a : Addr), 0x8000 ≤ a.toNat → 1 ≤ s.mapper.prgUnits →
    let image := fun (k : Nat) => Memory.read s.mapper.prg k 0#8
    let n16 := s.mapper.prgUnits
    let b := s.mapper.prgBank.toNat &&& 0x0F
    let at' := fun (bank : Nat) => image (bank * 16384 + (a.toNat &&& 0x3FFF))
    (busRead a s).1 =
      match s.mapper.kind with
      | .nrom => image ((a.toNat - 0x8000) % (16384 * n16))
      | .mmc1 =>
        match (s.mapper.control >>> 2).toNat &&& 3 with
        | 2 => if a.toNat < 0xC000 then at' 0 else at' (b % n16)
        | 3 => if a.toNat < 0xC000 then at' (b % n16) else at' (n16 - 1)
        | _ => if a.toNat < 0xC000 then at' ((b &&& 0x0E) % n16) else at' (((b &&& 0x0E) + 1) % n16)

/-- O59. What pattern-table addresses read: NROM directly, MMC1 by its CHR mode and banks, inside the image (R627,
R630, R636, R550). -/
def Obligations.CharacterBanksAreRead : Prop :=
  ∀ (m : Mapper) (p : Ppu) (a : VAddr), a.toNat < 0x2000 → 1 ≤ m.chrUnits →
    let n4 := 2 * m.chrUnits
    let at' := fun (bank : Nat) => bank * 4096 + (a.toNat &&& 0x0FFF)
    m.chrOffset a =
      (match m.kind with
      | .nrom => a.toNat
      | .mmc1 =>
        if m.control.toNat < 16 then
          (if a.toNat < 0x1000 then at' ((m.chr0.toNat &&& 0x1E) % n4) else at' (((m.chr0.toNat &&& 0x1E) + 1) % n4))
        else (if a.toNat < 0x1000 then at' (m.chr0.toNat % n4) else at' (m.chr1.toNat % n4))) ∧
    m.chrOffset a < 8192 * m.chrUnits ∧
    ppuRead m p a = Memory.read m.chr (m.chrOffset a) (m.chrUnlisted (m.chrOffset a)) ∧
    (∀ b : VAddr, b.toNat < 0x2000 → m.chrOffset a = m.chrOffset b → ppuRead m p a = ppuRead m p b)

/-- O60. load refuses an unreadable, truncated or unsupported image or one without PRG, and else builds the mapper the
header says (R490, R660, R661, R620). -/
def Obligations.LoaderRefusesAndBuilds : Prop :=
  ∀ (s : State) (file : List Byte),
    let h := fun (k : Nat) => (file.getD k 0#8).toNat
    let id := h 7 / 16 * 16 + h 6 / 16
    let bad := file.length < 16 + 16384 * h 4 + 8192 * h 5 ∨ id ≠ 0 ∧ id ≠ 1 ∨ h 4 = 0
    load none s = .refused (.fatalLoad .unreadable) ∧
    (bad → ∃ e, load (some file) s = .refused (.fatalLoad e)) ∧
    (¬ bad → ∃ m, load (some file) s = .next { s with mapper := m, cartLoaded := true } ∧
      m.kind = (if id = 0 then .nrom else .mmc1) ∧ m.prgUnits = h 4 ∧ m.chrUnits = max 1 (h 5) ∧
      m.chrIsRam = decide (h 5 = 0) ∧ m.prgRamUnits = max 1 (h 8) ∧
      m.mirroring = (if h 6 % 2 = 1 then .vertical else .horizontal) ∧
      m.sr = 0#5 ∧ m.count = 0 ∧ m.control = 0x0C#5 ∧ m.chr0 = 0#5 ∧ m.chr1 = 0#5 ∧ m.prgBank = 0#5 ∧
      (∀ k, k < 16384 * h 4 → Memory.read m.prg k 0#8 = file.getD (16 + k) 0#8) ∧
      (∀ k, k < 8192 * h 5 → Memory.read m.chr k 0#8 = file.getD (16 + 16384 * h 4 + k) 0#8))
end

