-- ==== Sys2Proof/Laws/Cells.lean ====
section
/-!
SUPPORT. Laws/Cells.lean: a memory reads back what was written, leaves every other entry alone, and every write keeps
its canonical form.
-/

namespace Sys2Proof.Machine

variable {α : Type}

theorem Memory.find_insert (m : Memory α) (k j : Nat) (v : α) :
    Memory.find (Memory.insert m k v) j = if j = k then some v else Memory.find m j := by
  induction m with
  | nil =>
    simp only [Memory.insert, Memory.find]
    split <;> simp
  | cons e m ih =>
    obtain ⟨i, u⟩ := e
    simp only [Memory.insert]
    split
    · simp only [Memory.find]
      split_ifs <;> first | rfl | omega
    · split
      · simp only [Memory.find]
        split_ifs <;> first | rfl | omega
      · simp only [Memory.find, ih]
        split_ifs <;> first | rfl | omega

theorem Memory.risesAbove_weaken {b : Option Nat} {j : Nat} {m : Memory α}
    (h : Memory.risesAbove (some j) m = true) (hb : b.all (· < j) = true) :
    Memory.risesAbove b m = true := by
  cases m with
  | nil => rfl
  | cons e m =>
    obtain ⟨i, u⟩ := e
    simp only [Memory.risesAbove, Bool.and_eq_true, Option.all_some, decide_eq_true_eq] at h ⊢
    refine ⟨?_, h.2⟩
    cases b with
    | none => rfl
    | some b =>
      simp only [Option.all_some, decide_eq_true_eq] at hb ⊢
      omega

theorem Memory.find_above {b : Option Nat} {m : Memory α} (h : Memory.risesAbove b m = true) {k : Nat}
    (hk : b.all (k ≤ ·) = true) (hb : b ≠ none) : Memory.find m k = none := by
  cases m with
  | nil => rfl
  | cons e m =>
    obtain ⟨i, u⟩ := e
    cases b with
    | none => exact absurd rfl hb
    | some b =>
      simp only [Memory.risesAbove, Bool.and_eq_true, Option.all_some, decide_eq_true_eq] at h hk
      simp only [Memory.find]
      split_ifs <;> first | rfl | omega

theorem Memory.find_erase {b : Option Nat} {m : Memory α} (h : Memory.risesAbove b m = true) (k j : Nat) :
    Memory.find (Memory.erase m k) j = if j = k then none else Memory.find m j := by
  induction m generalizing b with
  | nil => simp [Memory.erase, Memory.find]
  | cons e m ih =>
    obtain ⟨i, u⟩ := e
    simp only [Memory.risesAbove, Bool.and_eq_true] at h
    simp only [Memory.erase]
    split
    · simp only [Memory.find]
      split_ifs <;> first | rfl | omega
    · split
      · subst k
        by_cases hj : j ≤ i
        · rw [Memory.find_above h.2 (by simpa using hj) (by simp)]
          simp only [Memory.find]
          split_ifs <;> first | rfl | omega
        · simp only [Memory.find]
          split_ifs <;> first | rfl | omega
      · simp only [Memory.find, ih h.2]
        split_ifs <;> first | rfl | omega

theorem Memory.risesAbove_insert {b : Option Nat} {m : Memory α} (h : Memory.risesAbove b m = true) {k : Nat}
    (hk : b.all (· < k) = true) (v : α) : Memory.risesAbove b (Memory.insert m k v) = true := by
  induction m generalizing b with
  | nil => simp [Memory.insert, Memory.risesAbove, hk]
  | cons e m ih =>
    obtain ⟨i, u⟩ := e
    simp only [Memory.risesAbove, Bool.and_eq_true] at h
    simp only [Memory.insert]
    split
    · simp_all [Memory.risesAbove]
    · split
      · subst i
        simp_all [Memory.risesAbove]
      · simp only [Memory.risesAbove, Bool.and_eq_true]
        exact ⟨h.1, ih h.2 (by simp; omega)⟩

theorem Memory.risesAbove_erase {b : Option Nat} {m : Memory α} (h : Memory.risesAbove b m = true) (k : Nat) :
    Memory.risesAbove b (Memory.erase m k) = true := by
  induction m generalizing b with
  | nil => rfl
  | cons e m ih =>
    obtain ⟨i, u⟩ := e
    have h' := h
    simp only [Memory.risesAbove, Bool.and_eq_true] at h
    simp only [Memory.erase]
    split
    · exact h'
    · split
      · exact Memory.risesAbove_weaken h.2 h.1
      · simp only [Memory.risesAbove, Bool.and_eq_true]
        exact ⟨h.1, ih h.2⟩

theorem Memory.mem_insert {m : Memory α} {k : Nat} {v : α} {e : Nat × α} (h : e ∈ Memory.insert m k v) :
    e = (k, v) ∨ e ∈ m := by
  induction m with
  | nil => simpa [Memory.insert] using h
  | cons f m ih =>
    obtain ⟨i, u⟩ := f
    simp only [Memory.insert] at h
    split at h
    · simpa using h
    · split at h
      · simp only [List.mem_cons] at h ⊢
        tauto
      · simp only [List.mem_cons] at h ⊢
        rcases h with h | h
        · exact .inr (.inl h)
        · rcases ih h with h | h
          · exact .inl h
          · exact .inr (.inr h)

theorem Memory.mem_erase {m : Memory α} {k : Nat} {e : Nat × α} (h : e ∈ Memory.erase m k) : e ∈ m := by
  induction m with
  | nil => exact h
  | cons f m ih =>
    obtain ⟨i, u⟩ := f
    simp only [Memory.erase] at h
    split at h
    · exact h
    · split at h
      · exact List.mem_cons_of_mem _ h
      · simp only [List.mem_cons] at h ⊢
        rcases h with h | h
        · exact .inl h
        · exact .inr (ih h)

theorem Memory.mem_of_find {m : Memory α} {k : Nat} {v : α} (h : Memory.find m k = some v) : (k, v) ∈ m := by
  induction m with
  | nil => simp [Memory.find] at h
  | cons e m ih =>
    obtain ⟨i, u⟩ := e
    simp only [Memory.find] at h
    split at h
    · subst k
      simp_all
    · split at h
      · simp at h
      · exact List.mem_cons_of_mem _ (ih h)

@[simp] theorem Memory.insert_isEmpty (m : Memory α) (k : Nat) (v : α) : (Memory.insert m k v).isEmpty = false := by
  cases m with
  | nil => rfl
  | cons e m =>
    obtain ⟨i, u⟩ := e
    simp only [Memory.insert]
    split_ifs <;> rfl

variable [DecidableEq α]

theorem Memory.wf_iff {d : Option α} {size : Nat} {m : Memory α} :
    Memory.wf d size m = true ↔ Memory.risesAbove none m = true ∧ ∀ e ∈ m, e.1 < size ∧ d ≠ some e.2 := by
  simp [Memory.wf]

/-- An empty memory is in canonical form. -/
theorem Memory.wf_nil (d : Option α) (size : Nat) : Memory.wf d size [] = true := rfl

/-- Every write in range keeps the canonical form. -/
theorem Memory.wf_write {d : Option α} {size : Nat} {m : Memory α} (h : Memory.wf d size m = true) {k : Nat}
    (hk : k < size) (v : α) : Memory.wf d size (Memory.write d m k v) = true := by
  rw [Memory.wf_iff] at h ⊢
  simp only [Memory.write]
  split
  · exact ⟨Memory.risesAbove_erase h.1 k, fun e he => h.2 e (Memory.mem_erase he)⟩
  · refine ⟨Memory.risesAbove_insert h.1 (by simp) v, fun e he => ?_⟩
    rcases Memory.mem_insert he with rfl | he
    · exact ⟨hk, by assumption⟩
    · exact h.2 e he

/-- A memory reads back what was written, and reads every other entry as before. -/
theorem Memory.find_write {d : Option α} {m : Memory α} (h : Memory.risesAbove none m = true) (k j : Nat) (v : α) :
    Memory.find (Memory.write d m k v) j =
      if j = k then (if d = some v then none else some v) else Memory.find m j := by
  simp only [Memory.write]
  split
  · rw [Memory.find_erase h]
  · rw [Memory.find_insert]

/-- Read after write, a memory whose unlisted entries hold `d`. -/
theorem Memory.read_write {d : α} {m : Memory α} (h : Memory.risesAbove none m = true) (k j : Nat) (v : α) :
    Memory.read (Memory.write (some d) m k v) j d = if j = k then v else Memory.read m j d := by
  simp only [Memory.read, Memory.find_write h]
  split
  · by_cases hd : d = v <;> simp [hd]
  · rfl

/-- Read after write, a memory whose unlisted entries hold no recorded value. -/
theorem Memory.read_write_none {m : Memory α} (k j : Nat) (v d : α) :
    Memory.read (Memory.write none m k v) j d = if j = k then v else Memory.read m j d := by
  simp only [Memory.read, Memory.write, reduceCtorEq, if_false, Memory.find_insert]
  split <;> rfl

theorem Memory.rises_of_wf {d : Option α} {size : Nat} {m : Memory α} (h : Memory.wf d size m = true) :
    Memory.risesAbove none m = true := (Memory.wf_iff.mp h).1

end Sys2Proof.Machine
end

