-- ==== Sys2Proof/Laws/State.lean ====
section
/-!
SUPPORT. Laws/State.lean: what each named update of a state does to each field.
-/

namespace Sys2Proof.Machine

/-! ### setA -/

@[simp] theorem State.setA_a (s : State) (v : Byte) :
    (s.setA v).a = v := rfl
@[simp] theorem State.setA_x (s : State) (v : Byte) :
    (s.setA v).x = s.x := rfl
@[simp] theorem State.setA_y (s : State) (v : Byte) :
    (s.setA v).y = s.y := rfl
@[simp] theorem State.setA_sp (s : State) (v : Byte) :
    (s.setA v).sp = s.sp := rfl
@[simp] theorem State.setA_pc (s : State) (v : Byte) :
    (s.setA v).pc = s.pc := rfl
@[simp] theorem State.setA_p (s : State) (v : Byte) :
    (s.setA v).p = s.p := rfl
@[simp] theorem State.setA_ram (s : State) (v : Byte) :
    (s.setA v).ram = s.ram := rfl
@[simp] theorem State.setA_nmiPending (s : State) (v : Byte) :
    (s.setA v).nmiPending = s.nmiPending := rfl
@[simp] theorem State.setA_irqLine (s : State) (v : Byte) :
    (s.setA v).irqLine = s.irqLine := rfl
@[simp] theorem State.setA_remainingCycles (s : State) (v : Byte) :
    (s.setA v).remainingCycles = s.remainingCycles := rfl
@[simp] theorem State.setA_ppu (s : State) (v : Byte) :
    (s.setA v).ppu = s.ppu := rfl
@[simp] theorem State.setA_mapper (s : State) (v : Byte) :
    (s.setA v).mapper = s.mapper := rfl
@[simp] theorem State.setA_cartLoaded (s : State) (v : Byte) :
    (s.setA v).cartLoaded = s.cartLoaded := rfl
@[simp] theorem State.setA_params (s : State) (v : Byte) :
    (s.setA v).params = s.params := rfl
@[simp] theorem State.setA_draws (s : State) (v : Byte) :
    (s.setA v).draws = s.draws := rfl
@[simp] theorem State.setA_events (s : State) (v : Byte) :
    (s.setA v).events = s.events := rfl

/-! ### setX -/

@[simp] theorem State.setX_a (s : State) (v : Byte) :
    (s.setX v).a = s.a := rfl
@[simp] theorem State.setX_x (s : State) (v : Byte) :
    (s.setX v).x = v := rfl
@[simp] theorem State.setX_y (s : State) (v : Byte) :
    (s.setX v).y = s.y := rfl
@[simp] theorem State.setX_sp (s : State) (v : Byte) :
    (s.setX v).sp = s.sp := rfl
@[simp] theorem State.setX_pc (s : State) (v : Byte) :
    (s.setX v).pc = s.pc := rfl
@[simp] theorem State.setX_p (s : State) (v : Byte) :
    (s.setX v).p = s.p := rfl
@[simp] theorem State.setX_ram (s : State) (v : Byte) :
    (s.setX v).ram = s.ram := rfl
@[simp] theorem State.setX_nmiPending (s : State) (v : Byte) :
    (s.setX v).nmiPending = s.nmiPending := rfl
@[simp] theorem State.setX_irqLine (s : State) (v : Byte) :
    (s.setX v).irqLine = s.irqLine := rfl
@[simp] theorem State.setX_remainingCycles (s : State) (v : Byte) :
    (s.setX v).remainingCycles = s.remainingCycles := rfl
@[simp] theorem State.setX_ppu (s : State) (v : Byte) :
    (s.setX v).ppu = s.ppu := rfl
@[simp] theorem State.setX_mapper (s : State) (v : Byte) :
    (s.setX v).mapper = s.mapper := rfl
@[simp] theorem State.setX_cartLoaded (s : State) (v : Byte) :
    (s.setX v).cartLoaded = s.cartLoaded := rfl
@[simp] theorem State.setX_params (s : State) (v : Byte) :
    (s.setX v).params = s.params := rfl
@[simp] theorem State.setX_draws (s : State) (v : Byte) :
    (s.setX v).draws = s.draws := rfl
@[simp] theorem State.setX_events (s : State) (v : Byte) :
    (s.setX v).events = s.events := rfl

/-! ### setY -/

@[simp] theorem State.setY_a (s : State) (v : Byte) :
    (s.setY v).a = s.a := rfl
@[simp] theorem State.setY_x (s : State) (v : Byte) :
    (s.setY v).x = s.x := rfl
@[simp] theorem State.setY_y (s : State) (v : Byte) :
    (s.setY v).y = v := rfl
@[simp] theorem State.setY_sp (s : State) (v : Byte) :
    (s.setY v).sp = s.sp := rfl
@[simp] theorem State.setY_pc (s : State) (v : Byte) :
    (s.setY v).pc = s.pc := rfl
@[simp] theorem State.setY_p (s : State) (v : Byte) :
    (s.setY v).p = s.p := rfl
@[simp] theorem State.setY_ram (s : State) (v : Byte) :
    (s.setY v).ram = s.ram := rfl
@[simp] theorem State.setY_nmiPending (s : State) (v : Byte) :
    (s.setY v).nmiPending = s.nmiPending := rfl
@[simp] theorem State.setY_irqLine (s : State) (v : Byte) :
    (s.setY v).irqLine = s.irqLine := rfl
@[simp] theorem State.setY_remainingCycles (s : State) (v : Byte) :
    (s.setY v).remainingCycles = s.remainingCycles := rfl
@[simp] theorem State.setY_ppu (s : State) (v : Byte) :
    (s.setY v).ppu = s.ppu := rfl
@[simp] theorem State.setY_mapper (s : State) (v : Byte) :
    (s.setY v).mapper = s.mapper := rfl
@[simp] theorem State.setY_cartLoaded (s : State) (v : Byte) :
    (s.setY v).cartLoaded = s.cartLoaded := rfl
@[simp] theorem State.setY_params (s : State) (v : Byte) :
    (s.setY v).params = s.params := rfl
@[simp] theorem State.setY_draws (s : State) (v : Byte) :
    (s.setY v).draws = s.draws := rfl
@[simp] theorem State.setY_events (s : State) (v : Byte) :
    (s.setY v).events = s.events := rfl

/-! ### setSp -/

@[simp] theorem State.setSp_a (s : State) (v : Byte) :
    (s.setSp v).a = s.a := rfl
@[simp] theorem State.setSp_x (s : State) (v : Byte) :
    (s.setSp v).x = s.x := rfl
@[simp] theorem State.setSp_y (s : State) (v : Byte) :
    (s.setSp v).y = s.y := rfl
@[simp] theorem State.setSp_sp (s : State) (v : Byte) :
    (s.setSp v).sp = v := rfl
@[simp] theorem State.setSp_pc (s : State) (v : Byte) :
    (s.setSp v).pc = s.pc := rfl
@[simp] theorem State.setSp_p (s : State) (v : Byte) :
    (s.setSp v).p = s.p := rfl
@[simp] theorem State.setSp_ram (s : State) (v : Byte) :
    (s.setSp v).ram = s.ram := rfl
@[simp] theorem State.setSp_nmiPending (s : State) (v : Byte) :
    (s.setSp v).nmiPending = s.nmiPending := rfl
@[simp] theorem State.setSp_irqLine (s : State) (v : Byte) :
    (s.setSp v).irqLine = s.irqLine := rfl
@[simp] theorem State.setSp_remainingCycles (s : State) (v : Byte) :
    (s.setSp v).remainingCycles = s.remainingCycles := rfl
@[simp] theorem State.setSp_ppu (s : State) (v : Byte) :
    (s.setSp v).ppu = s.ppu := rfl
@[simp] theorem State.setSp_mapper (s : State) (v : Byte) :
    (s.setSp v).mapper = s.mapper := rfl
@[simp] theorem State.setSp_cartLoaded (s : State) (v : Byte) :
    (s.setSp v).cartLoaded = s.cartLoaded := rfl
@[simp] theorem State.setSp_params (s : State) (v : Byte) :
    (s.setSp v).params = s.params := rfl
@[simp] theorem State.setSp_draws (s : State) (v : Byte) :
    (s.setSp v).draws = s.draws := rfl
@[simp] theorem State.setSp_events (s : State) (v : Byte) :
    (s.setSp v).events = s.events := rfl

/-! ### setPc -/

@[simp] theorem State.setPc_a (s : State) (v : Addr) :
    (s.setPc v).a = s.a := rfl
@[simp] theorem State.setPc_x (s : State) (v : Addr) :
    (s.setPc v).x = s.x := rfl
@[simp] theorem State.setPc_y (s : State) (v : Addr) :
    (s.setPc v).y = s.y := rfl
@[simp] theorem State.setPc_sp (s : State) (v : Addr) :
    (s.setPc v).sp = s.sp := rfl
@[simp] theorem State.setPc_pc (s : State) (v : Addr) :
    (s.setPc v).pc = v := rfl
@[simp] theorem State.setPc_p (s : State) (v : Addr) :
    (s.setPc v).p = s.p := rfl
@[simp] theorem State.setPc_ram (s : State) (v : Addr) :
    (s.setPc v).ram = s.ram := rfl
@[simp] theorem State.setPc_nmiPending (s : State) (v : Addr) :
    (s.setPc v).nmiPending = s.nmiPending := rfl
@[simp] theorem State.setPc_irqLine (s : State) (v : Addr) :
    (s.setPc v).irqLine = s.irqLine := rfl
@[simp] theorem State.setPc_remainingCycles (s : State) (v : Addr) :
    (s.setPc v).remainingCycles = s.remainingCycles := rfl
@[simp] theorem State.setPc_ppu (s : State) (v : Addr) :
    (s.setPc v).ppu = s.ppu := rfl
@[simp] theorem State.setPc_mapper (s : State) (v : Addr) :
    (s.setPc v).mapper = s.mapper := rfl
@[simp] theorem State.setPc_cartLoaded (s : State) (v : Addr) :
    (s.setPc v).cartLoaded = s.cartLoaded := rfl
@[simp] theorem State.setPc_params (s : State) (v : Addr) :
    (s.setPc v).params = s.params := rfl
@[simp] theorem State.setPc_draws (s : State) (v : Addr) :
    (s.setPc v).draws = s.draws := rfl
@[simp] theorem State.setPc_events (s : State) (v : Addr) :
    (s.setPc v).events = s.events := rfl

/-! ### setP -/

@[simp] theorem State.setP_a (s : State) (q : Flags) :
    (s.setP q).a = s.a := rfl
@[simp] theorem State.setP_x (s : State) (q : Flags) :
    (s.setP q).x = s.x := rfl
@[simp] theorem State.setP_y (s : State) (q : Flags) :
    (s.setP q).y = s.y := rfl
@[simp] theorem State.setP_sp (s : State) (q : Flags) :
    (s.setP q).sp = s.sp := rfl
@[simp] theorem State.setP_pc (s : State) (q : Flags) :
    (s.setP q).pc = s.pc := rfl
@[simp] theorem State.setP_p (s : State) (q : Flags) :
    (s.setP q).p = q := rfl
@[simp] theorem State.setP_ram (s : State) (q : Flags) :
    (s.setP q).ram = s.ram := rfl
@[simp] theorem State.setP_nmiPending (s : State) (q : Flags) :
    (s.setP q).nmiPending = s.nmiPending := rfl
@[simp] theorem State.setP_irqLine (s : State) (q : Flags) :
    (s.setP q).irqLine = s.irqLine := rfl
@[simp] theorem State.setP_remainingCycles (s : State) (q : Flags) :
    (s.setP q).remainingCycles = s.remainingCycles := rfl
@[simp] theorem State.setP_ppu (s : State) (q : Flags) :
    (s.setP q).ppu = s.ppu := rfl
@[simp] theorem State.setP_mapper (s : State) (q : Flags) :
    (s.setP q).mapper = s.mapper := rfl
@[simp] theorem State.setP_cartLoaded (s : State) (q : Flags) :
    (s.setP q).cartLoaded = s.cartLoaded := rfl
@[simp] theorem State.setP_params (s : State) (q : Flags) :
    (s.setP q).params = s.params := rfl
@[simp] theorem State.setP_draws (s : State) (q : Flags) :
    (s.setP q).draws = s.draws := rfl
@[simp] theorem State.setP_events (s : State) (q : Flags) :
    (s.setP q).events = s.events := rfl

/-! ### setRam -/

@[simp] theorem State.setRam_a (s : State) (m : Memory Byte) :
    (s.setRam m).a = s.a := rfl
@[simp] theorem State.setRam_x (s : State) (m : Memory Byte) :
    (s.setRam m).x = s.x := rfl
@[simp] theorem State.setRam_y (s : State) (m : Memory Byte) :
    (s.setRam m).y = s.y := rfl
@[simp] theorem State.setRam_sp (s : State) (m : Memory Byte) :
    (s.setRam m).sp = s.sp := rfl
@[simp] theorem State.setRam_pc (s : State) (m : Memory Byte) :
    (s.setRam m).pc = s.pc := rfl
@[simp] theorem State.setRam_p (s : State) (m : Memory Byte) :
    (s.setRam m).p = s.p := rfl
@[simp] theorem State.setRam_ram (s : State) (m : Memory Byte) :
    (s.setRam m).ram = m := rfl
@[simp] theorem State.setRam_nmiPending (s : State) (m : Memory Byte) :
    (s.setRam m).nmiPending = s.nmiPending := rfl
@[simp] theorem State.setRam_irqLine (s : State) (m : Memory Byte) :
    (s.setRam m).irqLine = s.irqLine := rfl
@[simp] theorem State.setRam_remainingCycles (s : State) (m : Memory Byte) :
    (s.setRam m).remainingCycles = s.remainingCycles := rfl
@[simp] theorem State.setRam_ppu (s : State) (m : Memory Byte) :
    (s.setRam m).ppu = s.ppu := rfl
@[simp] theorem State.setRam_mapper (s : State) (m : Memory Byte) :
    (s.setRam m).mapper = s.mapper := rfl
@[simp] theorem State.setRam_cartLoaded (s : State) (m : Memory Byte) :
    (s.setRam m).cartLoaded = s.cartLoaded := rfl
@[simp] theorem State.setRam_params (s : State) (m : Memory Byte) :
    (s.setRam m).params = s.params := rfl
@[simp] theorem State.setRam_draws (s : State) (m : Memory Byte) :
    (s.setRam m).draws = s.draws := rfl
@[simp] theorem State.setRam_events (s : State) (m : Memory Byte) :
    (s.setRam m).events = s.events := rfl

/-! ### setPpu -/

@[simp] theorem State.setPpu_a (s : State) (q : Ppu) :
    (s.setPpu q).a = s.a := rfl
@[simp] theorem State.setPpu_x (s : State) (q : Ppu) :
    (s.setPpu q).x = s.x := rfl
@[simp] theorem State.setPpu_y (s : State) (q : Ppu) :
    (s.setPpu q).y = s.y := rfl
@[simp] theorem State.setPpu_sp (s : State) (q : Ppu) :
    (s.setPpu q).sp = s.sp := rfl
@[simp] theorem State.setPpu_pc (s : State) (q : Ppu) :
    (s.setPpu q).pc = s.pc := rfl
@[simp] theorem State.setPpu_p (s : State) (q : Ppu) :
    (s.setPpu q).p = s.p := rfl
@[simp] theorem State.setPpu_ram (s : State) (q : Ppu) :
    (s.setPpu q).ram = s.ram := rfl
@[simp] theorem State.setPpu_nmiPending (s : State) (q : Ppu) :
    (s.setPpu q).nmiPending = s.nmiPending := rfl
@[simp] theorem State.setPpu_irqLine (s : State) (q : Ppu) :
    (s.setPpu q).irqLine = s.irqLine := rfl
@[simp] theorem State.setPpu_remainingCycles (s : State) (q : Ppu) :
    (s.setPpu q).remainingCycles = s.remainingCycles := rfl
@[simp] theorem State.setPpu_ppu (s : State) (q : Ppu) :
    (s.setPpu q).ppu = q := rfl
@[simp] theorem State.setPpu_mapper (s : State) (q : Ppu) :
    (s.setPpu q).mapper = s.mapper := rfl
@[simp] theorem State.setPpu_cartLoaded (s : State) (q : Ppu) :
    (s.setPpu q).cartLoaded = s.cartLoaded := rfl
@[simp] theorem State.setPpu_params (s : State) (q : Ppu) :
    (s.setPpu q).params = s.params := rfl
@[simp] theorem State.setPpu_draws (s : State) (q : Ppu) :
    (s.setPpu q).draws = s.draws := rfl
@[simp] theorem State.setPpu_events (s : State) (q : Ppu) :
    (s.setPpu q).events = s.events := rfl

/-! ### setMapper -/

@[simp] theorem State.setMapper_a (s : State) (m : Mapper) :
    (s.setMapper m).a = s.a := rfl
@[simp] theorem State.setMapper_x (s : State) (m : Mapper) :
    (s.setMapper m).x = s.x := rfl
@[simp] theorem State.setMapper_y (s : State) (m : Mapper) :
    (s.setMapper m).y = s.y := rfl
@[simp] theorem State.setMapper_sp (s : State) (m : Mapper) :
    (s.setMapper m).sp = s.sp := rfl
@[simp] theorem State.setMapper_pc (s : State) (m : Mapper) :
    (s.setMapper m).pc = s.pc := rfl
@[simp] theorem State.setMapper_p (s : State) (m : Mapper) :
    (s.setMapper m).p = s.p := rfl
@[simp] theorem State.setMapper_ram (s : State) (m : Mapper) :
    (s.setMapper m).ram = s.ram := rfl
@[simp] theorem State.setMapper_nmiPending (s : State) (m : Mapper) :
    (s.setMapper m).nmiPending = s.nmiPending := rfl
@[simp] theorem State.setMapper_irqLine (s : State) (m : Mapper) :
    (s.setMapper m).irqLine = s.irqLine := rfl
@[simp] theorem State.setMapper_remainingCycles (s : State) (m : Mapper) :
    (s.setMapper m).remainingCycles = s.remainingCycles := rfl
@[simp] theorem State.setMapper_ppu (s : State) (m : Mapper) :
    (s.setMapper m).ppu = s.ppu := rfl
@[simp] theorem State.setMapper_mapper (s : State) (m : Mapper) :
    (s.setMapper m).mapper = m := rfl
@[simp] theorem State.setMapper_cartLoaded (s : State) (m : Mapper) :
    (s.setMapper m).cartLoaded = s.cartLoaded := rfl
@[simp] theorem State.setMapper_params (s : State) (m : Mapper) :
    (s.setMapper m).params = s.params := rfl
@[simp] theorem State.setMapper_draws (s : State) (m : Mapper) :
    (s.setMapper m).draws = s.draws := rfl
@[simp] theorem State.setMapper_events (s : State) (m : Mapper) :
    (s.setMapper m).events = s.events := rfl

/-! ### setNmi -/

@[simp] theorem State.setNmi_a (s : State) (v : Bool) :
    (s.setNmi v).a = s.a := rfl
@[simp] theorem State.setNmi_x (s : State) (v : Bool) :
    (s.setNmi v).x = s.x := rfl
@[simp] theorem State.setNmi_y (s : State) (v : Bool) :
    (s.setNmi v).y = s.y := rfl
@[simp] theorem State.setNmi_sp (s : State) (v : Bool) :
    (s.setNmi v).sp = s.sp := rfl
@[simp] theorem State.setNmi_pc (s : State) (v : Bool) :
    (s.setNmi v).pc = s.pc := rfl
@[simp] theorem State.setNmi_p (s : State) (v : Bool) :
    (s.setNmi v).p = s.p := rfl
@[simp] theorem State.setNmi_ram (s : State) (v : Bool) :
    (s.setNmi v).ram = s.ram := rfl
@[simp] theorem State.setNmi_nmiPending (s : State) (v : Bool) :
    (s.setNmi v).nmiPending = v := rfl
@[simp] theorem State.setNmi_irqLine (s : State) (v : Bool) :
    (s.setNmi v).irqLine = s.irqLine := rfl
@[simp] theorem State.setNmi_remainingCycles (s : State) (v : Bool) :
    (s.setNmi v).remainingCycles = s.remainingCycles := rfl
@[simp] theorem State.setNmi_ppu (s : State) (v : Bool) :
    (s.setNmi v).ppu = s.ppu := rfl
@[simp] theorem State.setNmi_mapper (s : State) (v : Bool) :
    (s.setNmi v).mapper = s.mapper := rfl
@[simp] theorem State.setNmi_cartLoaded (s : State) (v : Bool) :
    (s.setNmi v).cartLoaded = s.cartLoaded := rfl
@[simp] theorem State.setNmi_params (s : State) (v : Bool) :
    (s.setNmi v).params = s.params := rfl
@[simp] theorem State.setNmi_draws (s : State) (v : Bool) :
    (s.setNmi v).draws = s.draws := rfl
@[simp] theorem State.setNmi_events (s : State) (v : Bool) :
    (s.setNmi v).events = s.events := rfl

/-! ### setIrq -/

@[simp] theorem State.setIrq_a (s : State) (v : Bool) :
    (s.setIrq v).a = s.a := rfl
@[simp] theorem State.setIrq_x (s : State) (v : Bool) :
    (s.setIrq v).x = s.x := rfl
@[simp] theorem State.setIrq_y (s : State) (v : Bool) :
    (s.setIrq v).y = s.y := rfl
@[simp] theorem State.setIrq_sp (s : State) (v : Bool) :
    (s.setIrq v).sp = s.sp := rfl
@[simp] theorem State.setIrq_pc (s : State) (v : Bool) :
    (s.setIrq v).pc = s.pc := rfl
@[simp] theorem State.setIrq_p (s : State) (v : Bool) :
    (s.setIrq v).p = s.p := rfl
@[simp] theorem State.setIrq_ram (s : State) (v : Bool) :
    (s.setIrq v).ram = s.ram := rfl
@[simp] theorem State.setIrq_nmiPending (s : State) (v : Bool) :
    (s.setIrq v).nmiPending = s.nmiPending := rfl
@[simp] theorem State.setIrq_irqLine (s : State) (v : Bool) :
    (s.setIrq v).irqLine = v := rfl
@[simp] theorem State.setIrq_remainingCycles (s : State) (v : Bool) :
    (s.setIrq v).remainingCycles = s.remainingCycles := rfl
@[simp] theorem State.setIrq_ppu (s : State) (v : Bool) :
    (s.setIrq v).ppu = s.ppu := rfl
@[simp] theorem State.setIrq_mapper (s : State) (v : Bool) :
    (s.setIrq v).mapper = s.mapper := rfl
@[simp] theorem State.setIrq_cartLoaded (s : State) (v : Bool) :
    (s.setIrq v).cartLoaded = s.cartLoaded := rfl
@[simp] theorem State.setIrq_params (s : State) (v : Bool) :
    (s.setIrq v).params = s.params := rfl
@[simp] theorem State.setIrq_draws (s : State) (v : Bool) :
    (s.setIrq v).draws = s.draws := rfl
@[simp] theorem State.setIrq_events (s : State) (v : Bool) :
    (s.setIrq v).events = s.events := rfl

/-! ### emit -/

@[simp] theorem State.emit_a (s : State) (e : Event) :
    (s.emit e).a = s.a := rfl
@[simp] theorem State.emit_x (s : State) (e : Event) :
    (s.emit e).x = s.x := rfl
@[simp] theorem State.emit_y (s : State) (e : Event) :
    (s.emit e).y = s.y := rfl
@[simp] theorem State.emit_sp (s : State) (e : Event) :
    (s.emit e).sp = s.sp := rfl
@[simp] theorem State.emit_pc (s : State) (e : Event) :
    (s.emit e).pc = s.pc := rfl
@[simp] theorem State.emit_p (s : State) (e : Event) :
    (s.emit e).p = s.p := rfl
@[simp] theorem State.emit_ram (s : State) (e : Event) :
    (s.emit e).ram = s.ram := rfl
@[simp] theorem State.emit_nmiPending (s : State) (e : Event) :
    (s.emit e).nmiPending = s.nmiPending := rfl
@[simp] theorem State.emit_irqLine (s : State) (e : Event) :
    (s.emit e).irqLine = s.irqLine := rfl
@[simp] theorem State.emit_remainingCycles (s : State) (e : Event) :
    (s.emit e).remainingCycles = s.remainingCycles := rfl
@[simp] theorem State.emit_ppu (s : State) (e : Event) :
    (s.emit e).ppu = s.ppu := rfl
@[simp] theorem State.emit_mapper (s : State) (e : Event) :
    (s.emit e).mapper = s.mapper := rfl
@[simp] theorem State.emit_cartLoaded (s : State) (e : Event) :
    (s.emit e).cartLoaded = s.cartLoaded := rfl
@[simp] theorem State.emit_params (s : State) (e : Event) :
    (s.emit e).params = s.params := rfl
@[simp] theorem State.emit_draws (s : State) (e : Event) :
    (s.emit e).draws = s.draws := rfl
@[simp] theorem State.emit_events (s : State) (e : Event) :
    (s.emit e).events = e :: s.events := rfl

/-! ### countDraw -/

@[simp] theorem State.countDraw_a (s : State) :
    (s.countDraw).a = s.a := rfl
@[simp] theorem State.countDraw_x (s : State) :
    (s.countDraw).x = s.x := rfl
@[simp] theorem State.countDraw_y (s : State) :
    (s.countDraw).y = s.y := rfl
@[simp] theorem State.countDraw_sp (s : State) :
    (s.countDraw).sp = s.sp := rfl
@[simp] theorem State.countDraw_pc (s : State) :
    (s.countDraw).pc = s.pc := rfl
@[simp] theorem State.countDraw_p (s : State) :
    (s.countDraw).p = s.p := rfl
@[simp] theorem State.countDraw_ram (s : State) :
    (s.countDraw).ram = s.ram := rfl
@[simp] theorem State.countDraw_nmiPending (s : State) :
    (s.countDraw).nmiPending = s.nmiPending := rfl
@[simp] theorem State.countDraw_irqLine (s : State) :
    (s.countDraw).irqLine = s.irqLine := rfl
@[simp] theorem State.countDraw_remainingCycles (s : State) :
    (s.countDraw).remainingCycles = s.remainingCycles := rfl
@[simp] theorem State.countDraw_ppu (s : State) :
    (s.countDraw).ppu = s.ppu := rfl
@[simp] theorem State.countDraw_mapper (s : State) :
    (s.countDraw).mapper = s.mapper := rfl
@[simp] theorem State.countDraw_cartLoaded (s : State) :
    (s.countDraw).cartLoaded = s.cartLoaded := rfl
@[simp] theorem State.countDraw_params (s : State) :
    (s.countDraw).params = s.params := rfl
@[simp] theorem State.countDraw_draws (s : State) :
    (s.countDraw).draws = s.draws + 1 := rfl
@[simp] theorem State.countDraw_events (s : State) :
    (s.countDraw).events = s.events := rfl

/-! ### addCycles -/

@[simp] theorem State.addCycles_a (s : State) (n : Int) :
    (s.addCycles n).a = s.a := rfl
@[simp] theorem State.addCycles_x (s : State) (n : Int) :
    (s.addCycles n).x = s.x := rfl
@[simp] theorem State.addCycles_y (s : State) (n : Int) :
    (s.addCycles n).y = s.y := rfl
@[simp] theorem State.addCycles_sp (s : State) (n : Int) :
    (s.addCycles n).sp = s.sp := rfl
@[simp] theorem State.addCycles_pc (s : State) (n : Int) :
    (s.addCycles n).pc = s.pc := rfl
@[simp] theorem State.addCycles_p (s : State) (n : Int) :
    (s.addCycles n).p = s.p := rfl
@[simp] theorem State.addCycles_ram (s : State) (n : Int) :
    (s.addCycles n).ram = s.ram := rfl
@[simp] theorem State.addCycles_nmiPending (s : State) (n : Int) :
    (s.addCycles n).nmiPending = s.nmiPending := rfl
@[simp] theorem State.addCycles_irqLine (s : State) (n : Int) :
    (s.addCycles n).irqLine = s.irqLine := rfl
@[simp] theorem State.addCycles_remainingCycles (s : State) (n : Int) :
    (s.addCycles n).remainingCycles = s.remainingCycles + n := rfl
@[simp] theorem State.addCycles_ppu (s : State) (n : Int) :
    (s.addCycles n).ppu = s.ppu := rfl
@[simp] theorem State.addCycles_mapper (s : State) (n : Int) :
    (s.addCycles n).mapper = s.mapper := rfl
@[simp] theorem State.addCycles_cartLoaded (s : State) (n : Int) :
    (s.addCycles n).cartLoaded = s.cartLoaded := rfl
@[simp] theorem State.addCycles_params (s : State) (n : Int) :
    (s.addCycles n).params = s.params := rfl
@[simp] theorem State.addCycles_draws (s : State) (n : Int) :
    (s.addCycles n).draws = s.draws := rfl
@[simp] theorem State.addCycles_events (s : State) (n : Int) :
    (s.addCycles n).events = s.events := rfl

/-! ### setNZ -/

@[simp] theorem State.setNZ_a (s : State) (v : Byte) :
    (s.setNZ v).a = s.a := rfl
@[simp] theorem State.setNZ_x (s : State) (v : Byte) :
    (s.setNZ v).x = s.x := rfl
@[simp] theorem State.setNZ_y (s : State) (v : Byte) :
    (s.setNZ v).y = s.y := rfl
@[simp] theorem State.setNZ_sp (s : State) (v : Byte) :
    (s.setNZ v).sp = s.sp := rfl
@[simp] theorem State.setNZ_pc (s : State) (v : Byte) :
    (s.setNZ v).pc = s.pc := rfl
@[simp] theorem State.setNZ_p (s : State) (v : Byte) :
    (s.setNZ v).p = s.p.setNZ v := rfl
@[simp] theorem State.setNZ_ram (s : State) (v : Byte) :
    (s.setNZ v).ram = s.ram := rfl
@[simp] theorem State.setNZ_nmiPending (s : State) (v : Byte) :
    (s.setNZ v).nmiPending = s.nmiPending := rfl
@[simp] theorem State.setNZ_irqLine (s : State) (v : Byte) :
    (s.setNZ v).irqLine = s.irqLine := rfl
@[simp] theorem State.setNZ_remainingCycles (s : State) (v : Byte) :
    (s.setNZ v).remainingCycles = s.remainingCycles := rfl
@[simp] theorem State.setNZ_ppu (s : State) (v : Byte) :
    (s.setNZ v).ppu = s.ppu := rfl
@[simp] theorem State.setNZ_mapper (s : State) (v : Byte) :
    (s.setNZ v).mapper = s.mapper := rfl
@[simp] theorem State.setNZ_cartLoaded (s : State) (v : Byte) :
    (s.setNZ v).cartLoaded = s.cartLoaded := rfl
@[simp] theorem State.setNZ_params (s : State) (v : Byte) :
    (s.setNZ v).params = s.params := rfl
@[simp] theorem State.setNZ_draws (s : State) (v : Byte) :
    (s.setNZ v).draws = s.draws := rfl
@[simp] theorem State.setNZ_events (s : State) (v : Byte) :
    (s.setNZ v).events = s.events := rfl

/-! ### setC -/

@[simp] theorem State.setC_a (s : State) (v : Bool) :
    (s.setC v).a = s.a := rfl
@[simp] theorem State.setC_x (s : State) (v : Bool) :
    (s.setC v).x = s.x := rfl
@[simp] theorem State.setC_y (s : State) (v : Bool) :
    (s.setC v).y = s.y := rfl
@[simp] theorem State.setC_sp (s : State) (v : Bool) :
    (s.setC v).sp = s.sp := rfl
@[simp] theorem State.setC_pc (s : State) (v : Bool) :
    (s.setC v).pc = s.pc := rfl
@[simp] theorem State.setC_p (s : State) (v : Bool) :
    (s.setC v).p = { s.p with c := v } := rfl
@[simp] theorem State.setC_ram (s : State) (v : Bool) :
    (s.setC v).ram = s.ram := rfl
@[simp] theorem State.setC_nmiPending (s : State) (v : Bool) :
    (s.setC v).nmiPending = s.nmiPending := rfl
@[simp] theorem State.setC_irqLine (s : State) (v : Bool) :
    (s.setC v).irqLine = s.irqLine := rfl
@[simp] theorem State.setC_remainingCycles (s : State) (v : Bool) :
    (s.setC v).remainingCycles = s.remainingCycles := rfl
@[simp] theorem State.setC_ppu (s : State) (v : Bool) :
    (s.setC v).ppu = s.ppu := rfl
@[simp] theorem State.setC_mapper (s : State) (v : Bool) :
    (s.setC v).mapper = s.mapper := rfl
@[simp] theorem State.setC_cartLoaded (s : State) (v : Bool) :
    (s.setC v).cartLoaded = s.cartLoaded := rfl
@[simp] theorem State.setC_params (s : State) (v : Bool) :
    (s.setC v).params = s.params := rfl
@[simp] theorem State.setC_draws (s : State) (v : Bool) :
    (s.setC v).draws = s.draws := rfl
@[simp] theorem State.setC_events (s : State) (v : Bool) :
    (s.setC v).events = s.events := rfl

/-! ### ramWrite -/

@[simp] theorem State.ramWrite_a (s : State) (k : Nat) (v : Byte) :
    (s.ramWrite k v).a = s.a := rfl
@[simp] theorem State.ramWrite_x (s : State) (k : Nat) (v : Byte) :
    (s.ramWrite k v).x = s.x := rfl
@[simp] theorem State.ramWrite_y (s : State) (k : Nat) (v : Byte) :
    (s.ramWrite k v).y = s.y := rfl
@[simp] theorem State.ramWrite_sp (s : State) (k : Nat) (v : Byte) :
    (s.ramWrite k v).sp = s.sp := rfl
@[simp] theorem State.ramWrite_pc (s : State) (k : Nat) (v : Byte) :
    (s.ramWrite k v).pc = s.pc := rfl
@[simp] theorem State.ramWrite_p (s : State) (k : Nat) (v : Byte) :
    (s.ramWrite k v).p = s.p := rfl
@[simp] theorem State.ramWrite_ram (s : State) (k : Nat) (v : Byte) :
    (s.ramWrite k v).ram = Memory.write (some s.params.ramPoison) s.ram k v := rfl
@[simp] theorem State.ramWrite_nmiPending (s : State) (k : Nat) (v : Byte) :
    (s.ramWrite k v).nmiPending = s.nmiPending := rfl
@[simp] theorem State.ramWrite_irqLine (s : State) (k : Nat) (v : Byte) :
    (s.ramWrite k v).irqLine = s.irqLine := rfl
@[simp] theorem State.ramWrite_remainingCycles (s : State) (k : Nat) (v : Byte) :
    (s.ramWrite k v).remainingCycles = s.remainingCycles := rfl
@[simp] theorem State.ramWrite_ppu (s : State) (k : Nat) (v : Byte) :
    (s.ramWrite k v).ppu = s.ppu := rfl
@[simp] theorem State.ramWrite_mapper (s : State) (k : Nat) (v : Byte) :
    (s.ramWrite k v).mapper = s.mapper := rfl
@[simp] theorem State.ramWrite_cartLoaded (s : State) (k : Nat) (v : Byte) :
    (s.ramWrite k v).cartLoaded = s.cartLoaded := rfl
@[simp] theorem State.ramWrite_params (s : State) (k : Nat) (v : Byte) :
    (s.ramWrite k v).params = s.params := rfl
@[simp] theorem State.ramWrite_draws (s : State) (k : Nat) (v : Byte) :
    (s.ramWrite k v).draws = s.draws := rfl
@[simp] theorem State.ramWrite_events (s : State) (k : Nat) (v : Byte) :
    (s.ramWrite k v).events = s.events := rfl

end Sys2Proof.Machine
end

