-- ==== Sys2Proof/Laws/Ops.lean ====
section
/-!
SUPPORT. Laws/Ops.lean: what a tick, a bus access and a stack access can change: a read leaves every CPU register, RAM
and the mapper alone, a write every CPU register, and each takes its ticks.
-/

namespace Sys2Proof.Machine

/-! ### A tick moves only the PPU, the NMI latch, the cycle counter and the events -/

@[simp] theorem tick_a (s : State) :
    (tick s).a = s.a := rfl
@[simp] theorem tick_x (s : State) :
    (tick s).x = s.x := rfl
@[simp] theorem tick_y (s : State) :
    (tick s).y = s.y := rfl
@[simp] theorem tick_sp (s : State) :
    (tick s).sp = s.sp := rfl
@[simp] theorem tick_pc (s : State) :
    (tick s).pc = s.pc := rfl
@[simp] theorem tick_p (s : State) :
    (tick s).p = s.p := rfl
@[simp] theorem tick_irqLine (s : State) :
    (tick s).irqLine = s.irqLine := rfl
@[simp] theorem tick_cartLoaded (s : State) :
    (tick s).cartLoaded = s.cartLoaded := rfl
@[simp] theorem tick_params (s : State) :
    (tick s).params = s.params := rfl
@[simp] theorem tick_ram (s : State) :
    (tick s).ram = s.ram := rfl
@[simp] theorem tick_mapper (s : State) :
    (tick s).mapper = s.mapper := rfl
@[simp] theorem tick_draws (s : State) :
    (tick s).draws = s.draws := rfl
@[simp] theorem tick_remainingCycles (s : State) :
    (tick s).remainingCycles = s.remainingCycles - 1 := rfl

/-! ### A PPU register read -/

@[simp] theorem ppuRegRead_a (i : Nat) (s : State) :
    (ppuRegRead i s).2.a = s.a := by
  simp only [ppuRegRead, statusRead, dataRead, drawByte]
  split <;> try split
  all_goals rfl
@[simp] theorem ppuRegRead_x (i : Nat) (s : State) :
    (ppuRegRead i s).2.x = s.x := by
  simp only [ppuRegRead, statusRead, dataRead, drawByte]
  split <;> try split
  all_goals rfl
@[simp] theorem ppuRegRead_y (i : Nat) (s : State) :
    (ppuRegRead i s).2.y = s.y := by
  simp only [ppuRegRead, statusRead, dataRead, drawByte]
  split <;> try split
  all_goals rfl
@[simp] theorem ppuRegRead_sp (i : Nat) (s : State) :
    (ppuRegRead i s).2.sp = s.sp := by
  simp only [ppuRegRead, statusRead, dataRead, drawByte]
  split <;> try split
  all_goals rfl
@[simp] theorem ppuRegRead_pc (i : Nat) (s : State) :
    (ppuRegRead i s).2.pc = s.pc := by
  simp only [ppuRegRead, statusRead, dataRead, drawByte]
  split <;> try split
  all_goals rfl
@[simp] theorem ppuRegRead_p (i : Nat) (s : State) :
    (ppuRegRead i s).2.p = s.p := by
  simp only [ppuRegRead, statusRead, dataRead, drawByte]
  split <;> try split
  all_goals rfl
@[simp] theorem ppuRegRead_irqLine (i : Nat) (s : State) :
    (ppuRegRead i s).2.irqLine = s.irqLine := by
  simp only [ppuRegRead, statusRead, dataRead, drawByte]
  split <;> try split
  all_goals rfl
@[simp] theorem ppuRegRead_cartLoaded (i : Nat) (s : State) :
    (ppuRegRead i s).2.cartLoaded = s.cartLoaded := by
  simp only [ppuRegRead, statusRead, dataRead, drawByte]
  split <;> try split
  all_goals rfl
@[simp] theorem ppuRegRead_params (i : Nat) (s : State) :
    (ppuRegRead i s).2.params = s.params := by
  simp only [ppuRegRead, statusRead, dataRead, drawByte]
  split <;> try split
  all_goals rfl
@[simp] theorem ppuRegRead_nmiPending (i : Nat) (s : State) :
    (ppuRegRead i s).2.nmiPending = s.nmiPending := by
  simp only [ppuRegRead, statusRead, dataRead, drawByte]
  split <;> try split
  all_goals rfl
@[simp] theorem ppuRegRead_remainingCycles (i : Nat) (s : State) :
    (ppuRegRead i s).2.remainingCycles = s.remainingCycles := by
  simp only [ppuRegRead, statusRead, dataRead, drawByte]
  split <;> try split
  all_goals rfl
@[simp] theorem ppuRegRead_ram (i : Nat) (s : State) :
    (ppuRegRead i s).2.ram = s.ram := by
  simp only [ppuRegRead, statusRead, dataRead, drawByte]
  split <;> try split
  all_goals rfl
@[simp] theorem ppuRegRead_mapper (i : Nat) (s : State) :
    (ppuRegRead i s).2.mapper = s.mapper := by
  simp only [ppuRegRead, statusRead, dataRead, drawByte]
  split <;> try split
  all_goals rfl
@[simp] theorem ppuRegRead_events (i : Nat) (s : State) :
    (ppuRegRead i s).2.events = s.events := by
  simp only [ppuRegRead, statusRead, dataRead, drawByte]
  split <;> try split
  all_goals rfl

/-! ### A bus read -/

@[simp] theorem busRead_a (a : Addr) (s : State) :
    (busRead a s).2.a = s.a := by
  simp only [busRead, controllerRead, drawByte]
  split <;> simp
@[simp] theorem busRead_x (a : Addr) (s : State) :
    (busRead a s).2.x = s.x := by
  simp only [busRead, controllerRead, drawByte]
  split <;> simp
@[simp] theorem busRead_y (a : Addr) (s : State) :
    (busRead a s).2.y = s.y := by
  simp only [busRead, controllerRead, drawByte]
  split <;> simp
@[simp] theorem busRead_sp (a : Addr) (s : State) :
    (busRead a s).2.sp = s.sp := by
  simp only [busRead, controllerRead, drawByte]
  split <;> simp
@[simp] theorem busRead_pc (a : Addr) (s : State) :
    (busRead a s).2.pc = s.pc := by
  simp only [busRead, controllerRead, drawByte]
  split <;> simp
@[simp] theorem busRead_p (a : Addr) (s : State) :
    (busRead a s).2.p = s.p := by
  simp only [busRead, controllerRead, drawByte]
  split <;> simp
@[simp] theorem busRead_irqLine (a : Addr) (s : State) :
    (busRead a s).2.irqLine = s.irqLine := by
  simp only [busRead, controllerRead, drawByte]
  split <;> simp
@[simp] theorem busRead_cartLoaded (a : Addr) (s : State) :
    (busRead a s).2.cartLoaded = s.cartLoaded := by
  simp only [busRead, controllerRead, drawByte]
  split <;> simp
@[simp] theorem busRead_params (a : Addr) (s : State) :
    (busRead a s).2.params = s.params := by
  simp only [busRead, controllerRead, drawByte]
  split <;> simp
@[simp] theorem busRead_nmiPending (a : Addr) (s : State) :
    (busRead a s).2.nmiPending = s.nmiPending := by
  simp only [busRead, controllerRead, drawByte]
  split <;> simp
@[simp] theorem busRead_remainingCycles (a : Addr) (s : State) :
    (busRead a s).2.remainingCycles = s.remainingCycles := by
  simp only [busRead, controllerRead, drawByte]
  split <;> simp
@[simp] theorem busRead_ram (a : Addr) (s : State) :
    (busRead a s).2.ram = s.ram := by
  simp only [busRead, controllerRead, drawByte]
  split <;> simp
@[simp] theorem busRead_mapper (a : Addr) (s : State) :
    (busRead a s).2.mapper = s.mapper := by
  simp only [busRead, controllerRead, drawByte]
  split <;> simp
@[simp] theorem busRead_events (a : Addr) (s : State) :
    (busRead a s).2.events = s.events := by
  simp only [busRead, controllerRead, drawByte]
  split <;> simp

/-! ### A memory read -/

@[simp] theorem memRead_a (a : Addr) (s : State) :
    (memRead a s).2.a = s.a := by simp [memRead]
@[simp] theorem memRead_x (a : Addr) (s : State) :
    (memRead a s).2.x = s.x := by simp [memRead]
@[simp] theorem memRead_y (a : Addr) (s : State) :
    (memRead a s).2.y = s.y := by simp [memRead]
@[simp] theorem memRead_sp (a : Addr) (s : State) :
    (memRead a s).2.sp = s.sp := by simp [memRead]
@[simp] theorem memRead_pc (a : Addr) (s : State) :
    (memRead a s).2.pc = s.pc := by simp [memRead]
@[simp] theorem memRead_p (a : Addr) (s : State) :
    (memRead a s).2.p = s.p := by simp [memRead]
@[simp] theorem memRead_irqLine (a : Addr) (s : State) :
    (memRead a s).2.irqLine = s.irqLine := by simp [memRead]
@[simp] theorem memRead_cartLoaded (a : Addr) (s : State) :
    (memRead a s).2.cartLoaded = s.cartLoaded := by simp [memRead]
@[simp] theorem memRead_params (a : Addr) (s : State) :
    (memRead a s).2.params = s.params := by simp [memRead]
@[simp] theorem memRead_ram (a : Addr) (s : State) :
    (memRead a s).2.ram = s.ram := by simp [memRead]
@[simp] theorem memRead_mapper (a : Addr) (s : State) :
    (memRead a s).2.mapper = s.mapper := by simp [memRead]
@[simp] theorem memRead_remainingCycles (a : Addr) (s : State) :
    (memRead a s).2.remainingCycles = s.remainingCycles - 1 := by simp [memRead]

/-! ### A PPU register write -/

@[simp] theorem ppuRegWrite_a (i : Nat) (d : Byte) (s : State) :
    (ppuRegWrite i d s).a = s.a := by
  simp only [ppuRegWrite]
  split <;> rfl
@[simp] theorem ppuRegWrite_x (i : Nat) (d : Byte) (s : State) :
    (ppuRegWrite i d s).x = s.x := by
  simp only [ppuRegWrite]
  split <;> rfl
@[simp] theorem ppuRegWrite_y (i : Nat) (d : Byte) (s : State) :
    (ppuRegWrite i d s).y = s.y := by
  simp only [ppuRegWrite]
  split <;> rfl
@[simp] theorem ppuRegWrite_sp (i : Nat) (d : Byte) (s : State) :
    (ppuRegWrite i d s).sp = s.sp := by
  simp only [ppuRegWrite]
  split <;> rfl
@[simp] theorem ppuRegWrite_pc (i : Nat) (d : Byte) (s : State) :
    (ppuRegWrite i d s).pc = s.pc := by
  simp only [ppuRegWrite]
  split <;> rfl
@[simp] theorem ppuRegWrite_p (i : Nat) (d : Byte) (s : State) :
    (ppuRegWrite i d s).p = s.p := by
  simp only [ppuRegWrite]
  split <;> rfl
@[simp] theorem ppuRegWrite_irqLine (i : Nat) (d : Byte) (s : State) :
    (ppuRegWrite i d s).irqLine = s.irqLine := by
  simp only [ppuRegWrite]
  split <;> rfl
@[simp] theorem ppuRegWrite_cartLoaded (i : Nat) (d : Byte) (s : State) :
    (ppuRegWrite i d s).cartLoaded = s.cartLoaded := by
  simp only [ppuRegWrite]
  split <;> rfl
@[simp] theorem ppuRegWrite_params (i : Nat) (d : Byte) (s : State) :
    (ppuRegWrite i d s).params = s.params := by
  simp only [ppuRegWrite]
  split <;> rfl
@[simp] theorem ppuRegWrite_nmiPending (i : Nat) (d : Byte) (s : State) :
    (ppuRegWrite i d s).nmiPending = s.nmiPending := by
  simp only [ppuRegWrite]
  split <;> rfl
@[simp] theorem ppuRegWrite_remainingCycles (i : Nat) (d : Byte) (s : State) :
    (ppuRegWrite i d s).remainingCycles = s.remainingCycles := by
  simp only [ppuRegWrite]
  split <;> rfl
@[simp] theorem ppuRegWrite_ram (i : Nat) (d : Byte) (s : State) :
    (ppuRegWrite i d s).ram = s.ram := by
  simp only [ppuRegWrite]
  split <;> rfl
@[simp] theorem ppuRegWrite_draws (i : Nat) (d : Byte) (s : State) :
    (ppuRegWrite i d s).draws = s.draws := by
  simp only [ppuRegWrite]
  split <;> rfl
@[simp] theorem ppuRegWrite_events (i : Nat) (d : Byte) (s : State) :
    (ppuRegWrite i d s).events = s.events := by
  simp only [ppuRegWrite]
  split <;> rfl

/-! ### Sprite DMA -/

@[simp] theorem dmaCopy_a (page : Byte) (n : Nat) (s : State) :
    (dmaCopy page n s).a = s.a := by
  induction n generalizing s with
  | zero => rfl
  | succ n ih => simp [dmaCopy, ih]
@[simp] theorem dmaCopy_x (page : Byte) (n : Nat) (s : State) :
    (dmaCopy page n s).x = s.x := by
  induction n generalizing s with
  | zero => rfl
  | succ n ih => simp [dmaCopy, ih]
@[simp] theorem dmaCopy_y (page : Byte) (n : Nat) (s : State) :
    (dmaCopy page n s).y = s.y := by
  induction n generalizing s with
  | zero => rfl
  | succ n ih => simp [dmaCopy, ih]
@[simp] theorem dmaCopy_sp (page : Byte) (n : Nat) (s : State) :
    (dmaCopy page n s).sp = s.sp := by
  induction n generalizing s with
  | zero => rfl
  | succ n ih => simp [dmaCopy, ih]
@[simp] theorem dmaCopy_pc (page : Byte) (n : Nat) (s : State) :
    (dmaCopy page n s).pc = s.pc := by
  induction n generalizing s with
  | zero => rfl
  | succ n ih => simp [dmaCopy, ih]
@[simp] theorem dmaCopy_p (page : Byte) (n : Nat) (s : State) :
    (dmaCopy page n s).p = s.p := by
  induction n generalizing s with
  | zero => rfl
  | succ n ih => simp [dmaCopy, ih]
@[simp] theorem dmaCopy_irqLine (page : Byte) (n : Nat) (s : State) :
    (dmaCopy page n s).irqLine = s.irqLine := by
  induction n generalizing s with
  | zero => rfl
  | succ n ih => simp [dmaCopy, ih]
@[simp] theorem dmaCopy_cartLoaded (page : Byte) (n : Nat) (s : State) :
    (dmaCopy page n s).cartLoaded = s.cartLoaded := by
  induction n generalizing s with
  | zero => rfl
  | succ n ih => simp [dmaCopy, ih]
@[simp] theorem dmaCopy_params (page : Byte) (n : Nat) (s : State) :
    (dmaCopy page n s).params = s.params := by
  induction n generalizing s with
  | zero => rfl
  | succ n ih => simp [dmaCopy, ih]
@[simp] theorem dmaCopy_ram (page : Byte) (n : Nat) (s : State) :
    (dmaCopy page n s).ram = s.ram := by
  induction n generalizing s with
  | zero => rfl
  | succ n ih => simp [dmaCopy, ih]
@[simp] theorem dmaCopy_remainingCycles (page : Byte) (n : Nat) (s : State) :
    (dmaCopy page n s).remainingCycles = s.remainingCycles - 2 * n := by
  induction n generalizing s with
  | zero => simp [dmaCopy]
  | succ n ih =>
    simp only [dmaCopy, ih, ppuRegWrite_remainingCycles, tick_remainingCycles, memRead_remainingCycles]
    omega

/-! ### A bus write -/

@[simp] theorem busWrite_a (a : Addr) (v : Byte) (s : State) :
    (busWrite a v s).a = s.a := by
  simp only [busWrite, spriteDma]
  split <;> try split
  all_goals simp
@[simp] theorem busWrite_x (a : Addr) (v : Byte) (s : State) :
    (busWrite a v s).x = s.x := by
  simp only [busWrite, spriteDma]
  split <;> try split
  all_goals simp
@[simp] theorem busWrite_y (a : Addr) (v : Byte) (s : State) :
    (busWrite a v s).y = s.y := by
  simp only [busWrite, spriteDma]
  split <;> try split
  all_goals simp
@[simp] theorem busWrite_sp (a : Addr) (v : Byte) (s : State) :
    (busWrite a v s).sp = s.sp := by
  simp only [busWrite, spriteDma]
  split <;> try split
  all_goals simp
@[simp] theorem busWrite_pc (a : Addr) (v : Byte) (s : State) :
    (busWrite a v s).pc = s.pc := by
  simp only [busWrite, spriteDma]
  split <;> try split
  all_goals simp
@[simp] theorem busWrite_p (a : Addr) (v : Byte) (s : State) :
    (busWrite a v s).p = s.p := by
  simp only [busWrite, spriteDma]
  split <;> try split
  all_goals simp
@[simp] theorem busWrite_irqLine (a : Addr) (v : Byte) (s : State) :
    (busWrite a v s).irqLine = s.irqLine := by
  simp only [busWrite, spriteDma]
  split <;> try split
  all_goals simp
@[simp] theorem busWrite_cartLoaded (a : Addr) (v : Byte) (s : State) :
    (busWrite a v s).cartLoaded = s.cartLoaded := by
  simp only [busWrite, spriteDma]
  split <;> try split
  all_goals simp
@[simp] theorem busWrite_params (a : Addr) (v : Byte) (s : State) :
    (busWrite a v s).params = s.params := by
  simp only [busWrite, spriteDma]
  split <;> try split
  all_goals simp

/-! ### A memory write -/

@[simp] theorem memWrite_a (a : Addr) (v : Byte) (s : State) :
    (memWrite a v s).a = s.a := by simp [memWrite]
@[simp] theorem memWrite_x (a : Addr) (v : Byte) (s : State) :
    (memWrite a v s).x = s.x := by simp [memWrite]
@[simp] theorem memWrite_y (a : Addr) (v : Byte) (s : State) :
    (memWrite a v s).y = s.y := by simp [memWrite]
@[simp] theorem memWrite_sp (a : Addr) (v : Byte) (s : State) :
    (memWrite a v s).sp = s.sp := by simp [memWrite]
@[simp] theorem memWrite_pc (a : Addr) (v : Byte) (s : State) :
    (memWrite a v s).pc = s.pc := by simp [memWrite]
@[simp] theorem memWrite_p (a : Addr) (v : Byte) (s : State) :
    (memWrite a v s).p = s.p := by simp [memWrite]
@[simp] theorem memWrite_irqLine (a : Addr) (v : Byte) (s : State) :
    (memWrite a v s).irqLine = s.irqLine := by simp [memWrite]
@[simp] theorem memWrite_cartLoaded (a : Addr) (v : Byte) (s : State) :
    (memWrite a v s).cartLoaded = s.cartLoaded := by simp [memWrite]
@[simp] theorem memWrite_params (a : Addr) (v : Byte) (s : State) :
    (memWrite a v s).params = s.params := by simp [memWrite]

/-! ### Two reads -/

@[simp] theorem read16_a (a b : Addr) (s : State) :
    (read16 a b s).2.a = s.a := by simp [read16]
@[simp] theorem read16_x (a b : Addr) (s : State) :
    (read16 a b s).2.x = s.x := by simp [read16]
@[simp] theorem read16_y (a b : Addr) (s : State) :
    (read16 a b s).2.y = s.y := by simp [read16]
@[simp] theorem read16_sp (a b : Addr) (s : State) :
    (read16 a b s).2.sp = s.sp := by simp [read16]
@[simp] theorem read16_pc (a b : Addr) (s : State) :
    (read16 a b s).2.pc = s.pc := by simp [read16]
@[simp] theorem read16_p (a b : Addr) (s : State) :
    (read16 a b s).2.p = s.p := by simp [read16]
@[simp] theorem read16_irqLine (a b : Addr) (s : State) :
    (read16 a b s).2.irqLine = s.irqLine := by simp [read16]
@[simp] theorem read16_cartLoaded (a b : Addr) (s : State) :
    (read16 a b s).2.cartLoaded = s.cartLoaded := by simp [read16]
@[simp] theorem read16_params (a b : Addr) (s : State) :
    (read16 a b s).2.params = s.params := by simp [read16]
@[simp] theorem read16_ram (a b : Addr) (s : State) :
    (read16 a b s).2.ram = s.ram := by simp [read16]
@[simp] theorem read16_mapper (a b : Addr) (s : State) :
    (read16 a b s).2.mapper = s.mapper := by simp [read16]
@[simp] theorem read16_remainingCycles (a b : Addr) (s : State) :
    (read16 a b s).2.remainingCycles = s.remainingCycles - 2 := by
  simp only [read16, memRead_remainingCycles]
  omega

/-! ### The stack -/

@[simp] theorem push_a (v : Byte) (s : State) :
    (push v s).a = s.a := by simp [push]
@[simp] theorem push_x (v : Byte) (s : State) :
    (push v s).x = s.x := by simp [push]
@[simp] theorem push_y (v : Byte) (s : State) :
    (push v s).y = s.y := by simp [push]
@[simp] theorem push_sp (v : Byte) (s : State) :
    (push v s).sp = s.sp - 1#8 := by simp [push]
@[simp] theorem push_pc (v : Byte) (s : State) :
    (push v s).pc = s.pc := by simp [push]
@[simp] theorem push_p (v : Byte) (s : State) :
    (push v s).p = s.p := by simp [push]
@[simp] theorem push_irqLine (v : Byte) (s : State) :
    (push v s).irqLine = s.irqLine := by simp [push]
@[simp] theorem push_cartLoaded (v : Byte) (s : State) :
    (push v s).cartLoaded = s.cartLoaded := by simp [push]
@[simp] theorem push_params (v : Byte) (s : State) :
    (push v s).params = s.params := by simp [push]
@[simp] theorem pushWord_a (w : Addr) (s : State) :
    (pushWord w s).a = s.a := by simp [pushWord]
@[simp] theorem pushWord_x (w : Addr) (s : State) :
    (pushWord w s).x = s.x := by simp [pushWord]
@[simp] theorem pushWord_y (w : Addr) (s : State) :
    (pushWord w s).y = s.y := by simp [pushWord]
@[simp] theorem pushWord_sp (w : Addr) (s : State) :
    (pushWord w s).sp = s.sp - 2#8 := by
  simp only [pushWord, push_sp]
  bv_omega
@[simp] theorem pushWord_pc (w : Addr) (s : State) :
    (pushWord w s).pc = s.pc := by simp [pushWord]
@[simp] theorem pushWord_p (w : Addr) (s : State) :
    (pushWord w s).p = s.p := by simp [pushWord]
@[simp] theorem pushWord_irqLine (w : Addr) (s : State) :
    (pushWord w s).irqLine = s.irqLine := by simp [pushWord]
@[simp] theorem pushWord_cartLoaded (w : Addr) (s : State) :
    (pushWord w s).cartLoaded = s.cartLoaded := by simp [pushWord]
@[simp] theorem pushWord_params (w : Addr) (s : State) :
    (pushWord w s).params = s.params := by simp [pushWord]
@[simp] theorem pull_a (s : State) :
    (pull s).2.a = s.a := by simp [pull]
@[simp] theorem pull_x (s : State) :
    (pull s).2.x = s.x := by simp [pull]
@[simp] theorem pull_y (s : State) :
    (pull s).2.y = s.y := by simp [pull]
@[simp] theorem pull_sp (s : State) :
    (pull s).2.sp = s.sp + 1#8 := by simp [pull]
@[simp] theorem pull_pc (s : State) :
    (pull s).2.pc = s.pc := by simp [pull]
@[simp] theorem pull_p (s : State) :
    (pull s).2.p = s.p := by simp [pull]
@[simp] theorem pull_irqLine (s : State) :
    (pull s).2.irqLine = s.irqLine := by simp [pull]
@[simp] theorem pull_cartLoaded (s : State) :
    (pull s).2.cartLoaded = s.cartLoaded := by simp [pull]
@[simp] theorem pull_params (s : State) :
    (pull s).2.params = s.params := by simp [pull]
@[simp] theorem pull_ram (s : State) :
    (pull s).2.ram = s.ram := by simp [pull]
@[simp] theorem pull_mapper (s : State) :
    (pull s).2.mapper = s.mapper := by simp [pull]
@[simp] theorem pull_remainingCycles (s : State) :
    (pull s).2.remainingCycles = s.remainingCycles - 1 := by simp [pull]
@[simp] theorem pullWord_a (s : State) :
    (pullWord s).2.a = s.a := by simp [pullWord]
@[simp] theorem pullWord_x (s : State) :
    (pullWord s).2.x = s.x := by simp [pullWord]
@[simp] theorem pullWord_y (s : State) :
    (pullWord s).2.y = s.y := by simp [pullWord]
@[simp] theorem pullWord_sp (s : State) :
    (pullWord s).2.sp = s.sp + 2#8 := by
  simp only [pullWord, pull_sp]
  bv_omega
@[simp] theorem pullWord_pc (s : State) :
    (pullWord s).2.pc = s.pc := by simp [pullWord]
@[simp] theorem pullWord_p (s : State) :
    (pullWord s).2.p = s.p := by simp [pullWord]
@[simp] theorem pullWord_irqLine (s : State) :
    (pullWord s).2.irqLine = s.irqLine := by simp [pullWord]
@[simp] theorem pullWord_cartLoaded (s : State) :
    (pullWord s).2.cartLoaded = s.cartLoaded := by simp [pullWord]
@[simp] theorem pullWord_params (s : State) :
    (pullWord s).2.params = s.params := by simp [pullWord]
@[simp] theorem pullWord_ram (s : State) :
    (pullWord s).2.ram = s.ram := by simp [pullWord]
@[simp] theorem pullWord_mapper (s : State) :
    (pullWord s).2.mapper = s.mapper := by simp [pullWord]
@[simp] theorem pullWord_remainingCycles (s : State) :
    (pullWord s).2.remainingCycles = s.remainingCycles - 2 := by
  simp only [pullWord, pull_remainingCycles]
  omega

/-! ### Where an access goes -/

/-- A read of work RAM (R91): after the tick, the byte, and nothing else. -/
theorem memRead_at_ram {a : Addr} {k : Nat} (h : targetOf a = .ram k) (s : State) :
    memRead a s = (s.ramAt k, tick s) := by
  simp [memRead, busRead, h, State.ramAt]

/-- A read of PRG-RAM (R625). -/
theorem memRead_at_prgRam {a : Addr} {k : Nat} (h : targetOf a = .prgRam k) (s : State) :
    memRead a s = (s.mapper.prgRamRead k, tick s) := by
  simp [memRead, busRead, h]

/-- A read of PRG ROM (R625). -/
theorem memRead_at_prgRom {a : Addr} (h : targetOf a = .prgRom) (s : State) :
    memRead a s = (s.mapper.prgRead a, tick s) := by
  simp [memRead, busRead, h]

/-- A read of the APU stub (R94). -/
theorem memRead_at_apu {a : Addr} (h : targetOf a = .apu) (s : State) : memRead a s = (0x00#8, tick s) := by
  simp [memRead, busRead, h]

/-- A write of work RAM (R91). -/
theorem memWrite_at_ram {a : Addr} {k : Nat} (h : targetOf a = .ram k) (v : Byte) (s : State) :
    memWrite a v s = (tick s).ramWrite k v := by
  simp [memWrite, busWrite, h]

/-- A write of PRG-RAM (R626). -/
theorem memWrite_at_prgRam {a : Addr} {k : Nat} (h : targetOf a = .prgRam k) (v : Byte) (s : State) :
    memWrite a v s = (tick s).setMapper (s.mapper.prgRamWrite k v) := by
  simp [memWrite, busWrite, h]

/-- A write of 0x8000-0xFFFF (R626). -/
theorem memWrite_at_prgRom {a : Addr} (h : targetOf a = .prgRom) (v : Byte) (s : State) :
    memWrite a v s = (tick s).setMapper (s.mapper.prgWrite a v) := by
  simp [memWrite, busWrite, h]

/-- The zero page and the stack page are work RAM (R98). -/
theorem targetOf_low {a : Addr} (h : a.toNat < 0x800) : targetOf a = .ram a.toNat := by
  have h1 : a.toNat < 0x2000 := by omega
  simp [targetOf, h1, Nat.mod_eq_of_lt h]

theorem targetOf_zext16 (b : Byte) : targetOf (zext16 b) = .ram b.toNat := by
  have hb := b.isLt
  have h : (zext16 b).toNat = b.toNat := by
    simp only [zext16, BitVec.toNat_setWidth]
    omega
  rw [targetOf_low (by omega), h]

theorem toNat_word (hi lo : Byte) : (word hi lo).toNat = hi.toNat * 256 + lo.toNat := by
  have hlo := lo.isLt
  simp only [word, BitVec.toNat_append]
  rw [← Nat.shiftLeft_add_eq_or_of_lt (by omega), Nat.shiftLeft_eq]

theorem targetOf_stackAddr (sp : Byte) : targetOf (stackAddr sp) = .ram (0x100 + sp.toNat) := by
  have hb := sp.isLt
  have h : (stackAddr sp).toNat = 0x100 + sp.toNat := by
    simp only [stackAddr, toNat_word, BitVec.toNat_ofNat]
  rw [targetOf_low (by omega), h]

/-- What a push does (R35): after the tick one RAM byte, and S. -/
theorem push_eq (v : Byte) (s : State) :
    push v s = ((tick s).ramWrite (0x100 + s.sp.toNat) v).setSp (s.sp - 1#8) := by
  simp only [push, memWrite_at_ram (targetOf_stackAddr s.sp)]
  rfl

/-- What a pull does (R35). -/
theorem pull_eq (s : State) :
    pull s = (s.ramAt (0x100 + (s.sp + 1#8).toNat), tick (s.setSp (s.sp + 1#8))) := by
  simp only [pull, State.setSp_sp, memRead_at_ram (targetOf_stackAddr (s.sp + 1#8))]
  rfl

end Sys2Proof.Machine
end

