-- ==== Sys2Proof/Laws/Ppu.lean ====
section
/-!
SUPPORT. Laws/Ppu.lean: what the dot machine leaves alone: the registers the CPU writes, OAM, nametable RAM and palette
RAM (65_ppu.md R560 to R593 write none of them), and that a dot keeps the PPU's invariants.
-/

namespace Sys2Proof.Machine

/-! ### ctrl -/

@[simp] theorem Ppu.status_ctrl (p : Ppu) : p.status.ctrl = p.ctrl := by
  unfold Ppu.status
  split <;> try split
  all_goals rfl

@[simp] theorem Ppu.fetch_ctrl (m : Mapper) (p : Ppu) (r : Nat) : (p.fetch m r).ctrl = p.ctrl := by
  unfold Ppu.fetch
  split <;> rfl

@[simp] theorem Ppu.background_ctrl (m : Mapper) (p : Ppu) : (p.background m).ctrl = p.ctrl := by
  unfold Ppu.background
  extract_lets p1 p2 p3 p4 p5 p6
  have h1 : p1.ctrl = p.ctrl := by unfold p1; split <;> rfl
  have h2 : p2.ctrl = p1.ctrl := by unfold p2; split <;> rfl
  have h3 : p3.ctrl = p2.ctrl := by unfold p3; split <;> first | exact Ppu.fetch_ctrl .. | rfl
  have h4 : p4.ctrl = p3.ctrl := by unfold p4; split <;> rfl
  have h5 : p5.ctrl = p4.ctrl := by unfold p5; split <;> rfl
  have h6 : p6.ctrl = p5.ctrl := by unfold p6; split <;> rfl
  have h7 : p6.ctrl = p.ctrl := by rw [h6, h5, h4, h3, h2, h1]
  split <;> exact h7

@[simp] theorem Ppu.evaluateFrom_ctrl (p : Ppu) (ns : List Nat) : (p.evaluateFrom ns).ctrl = p.ctrl := by
  induction ns generalizing p with
  | nil => rfl
  | cons n ns ih =>
    simp only [Ppu.evaluateFrom]
    split <;> try split
    all_goals first | rfl | rw [ih] <;> rfl

@[simp] theorem Ppu.sprites_ctrl (m : Mapper) (p : Ppu) : (p.sprites m).ctrl = p.ctrl := by
  unfold Ppu.sprites
  split
  · rfl
  · split
    · exact Ppu.evaluateFrom_ctrl ..
    · split <;> rfl

@[simp] theorem Ppu.render_ctrl (m : Mapper) (p : Ppu) : (p.render m).ctrl = p.ctrl := by
  unfold Ppu.render
  extract_lets p1 p2
  have h1 : p1.ctrl = p.ctrl := by unfold p1; split <;> simp
  have h2 : p2.ctrl = p1.ctrl := by unfold p2; split <;> simp
  have h3 : p2.ctrl = p.ctrl := by rw [h2, h1]
  split <;> exact h3

@[simp] theorem Ppu.step_ctrl (m : Mapper) (p : Ppu) : (p.step m).ctrl = p.ctrl := by
  have h : (p.doDot m).ctrl = p.ctrl := by
    unfold Ppu.doDot
    extract_lets q
    split <;> simp [q]
  unfold Ppu.step Ppu.advance
  split <;> exact h

@[simp] theorem tick_ppu_ctrl (s : State) : (tick s).ppu.ctrl = s.ppu.ctrl := by
  simp [tick, State.dotStep]

/-! ### mask -/

@[simp] theorem Ppu.status_mask (p : Ppu) : p.status.mask = p.mask := by
  unfold Ppu.status
  split <;> try split
  all_goals rfl

@[simp] theorem Ppu.fetch_mask (m : Mapper) (p : Ppu) (r : Nat) : (p.fetch m r).mask = p.mask := by
  unfold Ppu.fetch
  split <;> rfl

@[simp] theorem Ppu.background_mask (m : Mapper) (p : Ppu) : (p.background m).mask = p.mask := by
  unfold Ppu.background
  extract_lets p1 p2 p3 p4 p5 p6
  have h1 : p1.mask = p.mask := by unfold p1; split <;> rfl
  have h2 : p2.mask = p1.mask := by unfold p2; split <;> rfl
  have h3 : p3.mask = p2.mask := by unfold p3; split <;> first | exact Ppu.fetch_mask .. | rfl
  have h4 : p4.mask = p3.mask := by unfold p4; split <;> rfl
  have h5 : p5.mask = p4.mask := by unfold p5; split <;> rfl
  have h6 : p6.mask = p5.mask := by unfold p6; split <;> rfl
  have h7 : p6.mask = p.mask := by rw [h6, h5, h4, h3, h2, h1]
  split <;> exact h7

@[simp] theorem Ppu.evaluateFrom_mask (p : Ppu) (ns : List Nat) : (p.evaluateFrom ns).mask = p.mask := by
  induction ns generalizing p with
  | nil => rfl
  | cons n ns ih =>
    simp only [Ppu.evaluateFrom]
    split <;> try split
    all_goals first | rfl | rw [ih] <;> rfl

@[simp] theorem Ppu.sprites_mask (m : Mapper) (p : Ppu) : (p.sprites m).mask = p.mask := by
  unfold Ppu.sprites
  split
  · rfl
  · split
    · exact Ppu.evaluateFrom_mask ..
    · split <;> rfl

@[simp] theorem Ppu.render_mask (m : Mapper) (p : Ppu) : (p.render m).mask = p.mask := by
  unfold Ppu.render
  extract_lets p1 p2
  have h1 : p1.mask = p.mask := by unfold p1; split <;> simp
  have h2 : p2.mask = p1.mask := by unfold p2; split <;> simp
  have h3 : p2.mask = p.mask := by rw [h2, h1]
  split <;> exact h3

@[simp] theorem Ppu.step_mask (m : Mapper) (p : Ppu) : (p.step m).mask = p.mask := by
  have h : (p.doDot m).mask = p.mask := by
    unfold Ppu.doDot
    extract_lets q
    split <;> simp [q]
  unfold Ppu.step Ppu.advance
  split <;> exact h

@[simp] theorem tick_ppu_mask (s : State) : (tick s).ppu.mask = s.ppu.mask := by
  simp [tick, State.dotStep]

/-! ### oamAddr -/

@[simp] theorem Ppu.status_oamAddr (p : Ppu) : p.status.oamAddr = p.oamAddr := by
  unfold Ppu.status
  split <;> try split
  all_goals rfl

@[simp] theorem Ppu.fetch_oamAddr (m : Mapper) (p : Ppu) (r : Nat) : (p.fetch m r).oamAddr = p.oamAddr := by
  unfold Ppu.fetch
  split <;> rfl

@[simp] theorem Ppu.background_oamAddr (m : Mapper) (p : Ppu) : (p.background m).oamAddr = p.oamAddr := by
  unfold Ppu.background
  extract_lets p1 p2 p3 p4 p5 p6
  have h1 : p1.oamAddr = p.oamAddr := by unfold p1; split <;> rfl
  have h2 : p2.oamAddr = p1.oamAddr := by unfold p2; split <;> rfl
  have h3 : p3.oamAddr = p2.oamAddr := by unfold p3; split <;> first | exact Ppu.fetch_oamAddr .. | rfl
  have h4 : p4.oamAddr = p3.oamAddr := by unfold p4; split <;> rfl
  have h5 : p5.oamAddr = p4.oamAddr := by unfold p5; split <;> rfl
  have h6 : p6.oamAddr = p5.oamAddr := by unfold p6; split <;> rfl
  have h7 : p6.oamAddr = p.oamAddr := by rw [h6, h5, h4, h3, h2, h1]
  split <;> exact h7

@[simp] theorem Ppu.evaluateFrom_oamAddr (p : Ppu) (ns : List Nat) : (p.evaluateFrom ns).oamAddr = p.oamAddr := by
  induction ns generalizing p with
  | nil => rfl
  | cons n ns ih =>
    simp only [Ppu.evaluateFrom]
    split <;> try split
    all_goals first | rfl | rw [ih] <;> rfl

@[simp] theorem Ppu.sprites_oamAddr (m : Mapper) (p : Ppu) : (p.sprites m).oamAddr = p.oamAddr := by
  unfold Ppu.sprites
  split
  · rfl
  · split
    · exact Ppu.evaluateFrom_oamAddr ..
    · split <;> rfl

@[simp] theorem Ppu.render_oamAddr (m : Mapper) (p : Ppu) : (p.render m).oamAddr = p.oamAddr := by
  unfold Ppu.render
  extract_lets p1 p2
  have h1 : p1.oamAddr = p.oamAddr := by unfold p1; split <;> simp
  have h2 : p2.oamAddr = p1.oamAddr := by unfold p2; split <;> simp
  have h3 : p2.oamAddr = p.oamAddr := by rw [h2, h1]
  split <;> exact h3

@[simp] theorem Ppu.step_oamAddr (m : Mapper) (p : Ppu) : (p.step m).oamAddr = p.oamAddr := by
  have h : (p.doDot m).oamAddr = p.oamAddr := by
    unfold Ppu.doDot
    extract_lets q
    split <;> simp [q]
  unfold Ppu.step Ppu.advance
  split <;> exact h

@[simp] theorem tick_ppu_oamAddr (s : State) : (tick s).ppu.oamAddr = s.ppu.oamAddr := by
  simp [tick, State.dotStep]

/-! ### oam -/

@[simp] theorem Ppu.status_oam (p : Ppu) : p.status.oam = p.oam := by
  unfold Ppu.status
  split <;> try split
  all_goals rfl

@[simp] theorem Ppu.fetch_oam (m : Mapper) (p : Ppu) (r : Nat) : (p.fetch m r).oam = p.oam := by
  unfold Ppu.fetch
  split <;> rfl

@[simp] theorem Ppu.background_oam (m : Mapper) (p : Ppu) : (p.background m).oam = p.oam := by
  unfold Ppu.background
  extract_lets p1 p2 p3 p4 p5 p6
  have h1 : p1.oam = p.oam := by unfold p1; split <;> rfl
  have h2 : p2.oam = p1.oam := by unfold p2; split <;> rfl
  have h3 : p3.oam = p2.oam := by unfold p3; split <;> first | exact Ppu.fetch_oam .. | rfl
  have h4 : p4.oam = p3.oam := by unfold p4; split <;> rfl
  have h5 : p5.oam = p4.oam := by unfold p5; split <;> rfl
  have h6 : p6.oam = p5.oam := by unfold p6; split <;> rfl
  have h7 : p6.oam = p.oam := by rw [h6, h5, h4, h3, h2, h1]
  split <;> exact h7

@[simp] theorem Ppu.evaluateFrom_oam (p : Ppu) (ns : List Nat) : (p.evaluateFrom ns).oam = p.oam := by
  induction ns generalizing p with
  | nil => rfl
  | cons n ns ih =>
    simp only [Ppu.evaluateFrom]
    split <;> try split
    all_goals first | rfl | rw [ih] <;> rfl

@[simp] theorem Ppu.sprites_oam (m : Mapper) (p : Ppu) : (p.sprites m).oam = p.oam := by
  unfold Ppu.sprites
  split
  · rfl
  · split
    · exact Ppu.evaluateFrom_oam ..
    · split <;> rfl

@[simp] theorem Ppu.render_oam (m : Mapper) (p : Ppu) : (p.render m).oam = p.oam := by
  unfold Ppu.render
  extract_lets p1 p2
  have h1 : p1.oam = p.oam := by unfold p1; split <;> simp
  have h2 : p2.oam = p1.oam := by unfold p2; split <;> simp
  have h3 : p2.oam = p.oam := by rw [h2, h1]
  split <;> exact h3

@[simp] theorem Ppu.step_oam (m : Mapper) (p : Ppu) : (p.step m).oam = p.oam := by
  have h : (p.doDot m).oam = p.oam := by
    unfold Ppu.doDot
    extract_lets q
    split <;> simp [q]
  unfold Ppu.step Ppu.advance
  split <;> exact h

@[simp] theorem tick_ppu_oam (s : State) : (tick s).ppu.oam = s.ppu.oam := by
  simp [tick, State.dotStep]

/-! ### ciram -/

@[simp] theorem Ppu.status_ciram (p : Ppu) : p.status.ciram = p.ciram := by
  unfold Ppu.status
  split <;> try split
  all_goals rfl

@[simp] theorem Ppu.fetch_ciram (m : Mapper) (p : Ppu) (r : Nat) : (p.fetch m r).ciram = p.ciram := by
  unfold Ppu.fetch
  split <;> rfl

@[simp] theorem Ppu.background_ciram (m : Mapper) (p : Ppu) : (p.background m).ciram = p.ciram := by
  unfold Ppu.background
  extract_lets p1 p2 p3 p4 p5 p6
  have h1 : p1.ciram = p.ciram := by unfold p1; split <;> rfl
  have h2 : p2.ciram = p1.ciram := by unfold p2; split <;> rfl
  have h3 : p3.ciram = p2.ciram := by unfold p3; split <;> first | exact Ppu.fetch_ciram .. | rfl
  have h4 : p4.ciram = p3.ciram := by unfold p4; split <;> rfl
  have h5 : p5.ciram = p4.ciram := by unfold p5; split <;> rfl
  have h6 : p6.ciram = p5.ciram := by unfold p6; split <;> rfl
  have h7 : p6.ciram = p.ciram := by rw [h6, h5, h4, h3, h2, h1]
  split <;> exact h7

@[simp] theorem Ppu.evaluateFrom_ciram (p : Ppu) (ns : List Nat) : (p.evaluateFrom ns).ciram = p.ciram := by
  induction ns generalizing p with
  | nil => rfl
  | cons n ns ih =>
    simp only [Ppu.evaluateFrom]
    split <;> try split
    all_goals first | rfl | rw [ih] <;> rfl

@[simp] theorem Ppu.sprites_ciram (m : Mapper) (p : Ppu) : (p.sprites m).ciram = p.ciram := by
  unfold Ppu.sprites
  split
  · rfl
  · split
    · exact Ppu.evaluateFrom_ciram ..
    · split <;> rfl

@[simp] theorem Ppu.render_ciram (m : Mapper) (p : Ppu) : (p.render m).ciram = p.ciram := by
  unfold Ppu.render
  extract_lets p1 p2
  have h1 : p1.ciram = p.ciram := by unfold p1; split <;> simp
  have h2 : p2.ciram = p1.ciram := by unfold p2; split <;> simp
  have h3 : p2.ciram = p.ciram := by rw [h2, h1]
  split <;> exact h3

@[simp] theorem Ppu.step_ciram (m : Mapper) (p : Ppu) : (p.step m).ciram = p.ciram := by
  have h : (p.doDot m).ciram = p.ciram := by
    unfold Ppu.doDot
    extract_lets q
    split <;> simp [q]
  unfold Ppu.step Ppu.advance
  split <;> exact h

@[simp] theorem tick_ppu_ciram (s : State) : (tick s).ppu.ciram = s.ppu.ciram := by
  simp [tick, State.dotStep]

/-! ### palette -/

@[simp] theorem Ppu.status_palette (p : Ppu) : p.status.palette = p.palette := by
  unfold Ppu.status
  split <;> try split
  all_goals rfl

@[simp] theorem Ppu.fetch_palette (m : Mapper) (p : Ppu) (r : Nat) : (p.fetch m r).palette = p.palette := by
  unfold Ppu.fetch
  split <;> rfl

@[simp] theorem Ppu.background_palette (m : Mapper) (p : Ppu) : (p.background m).palette = p.palette := by
  unfold Ppu.background
  extract_lets p1 p2 p3 p4 p5 p6
  have h1 : p1.palette = p.palette := by unfold p1; split <;> rfl
  have h2 : p2.palette = p1.palette := by unfold p2; split <;> rfl
  have h3 : p3.palette = p2.palette := by unfold p3; split <;> first | exact Ppu.fetch_palette .. | rfl
  have h4 : p4.palette = p3.palette := by unfold p4; split <;> rfl
  have h5 : p5.palette = p4.palette := by unfold p5; split <;> rfl
  have h6 : p6.palette = p5.palette := by unfold p6; split <;> rfl
  have h7 : p6.palette = p.palette := by rw [h6, h5, h4, h3, h2, h1]
  split <;> exact h7

@[simp] theorem Ppu.evaluateFrom_palette (p : Ppu) (ns : List Nat) : (p.evaluateFrom ns).palette = p.palette := by
  induction ns generalizing p with
  | nil => rfl
  | cons n ns ih =>
    simp only [Ppu.evaluateFrom]
    split <;> try split
    all_goals first | rfl | rw [ih] <;> rfl

@[simp] theorem Ppu.sprites_palette (m : Mapper) (p : Ppu) : (p.sprites m).palette = p.palette := by
  unfold Ppu.sprites
  split
  · rfl
  · split
    · exact Ppu.evaluateFrom_palette ..
    · split <;> rfl

@[simp] theorem Ppu.render_palette (m : Mapper) (p : Ppu) : (p.render m).palette = p.palette := by
  unfold Ppu.render
  extract_lets p1 p2
  have h1 : p1.palette = p.palette := by unfold p1; split <;> simp
  have h2 : p2.palette = p1.palette := by unfold p2; split <;> simp
  have h3 : p2.palette = p.palette := by rw [h2, h1]
  split <;> exact h3

@[simp] theorem Ppu.step_palette (m : Mapper) (p : Ppu) : (p.step m).palette = p.palette := by
  have h : (p.doDot m).palette = p.palette := by
    unfold Ppu.doDot
    extract_lets q
    split <;> simp [q]
  unfold Ppu.step Ppu.advance
  split <;> exact h

@[simp] theorem tick_ppu_palette (s : State) : (tick s).ppu.palette = s.ppu.palette := by
  simp [tick, State.dotStep]

/-! ### t -/

@[simp] theorem Ppu.status_t (p : Ppu) : p.status.t = p.t := by
  unfold Ppu.status
  split <;> try split
  all_goals rfl

@[simp] theorem Ppu.fetch_t (m : Mapper) (p : Ppu) (r : Nat) : (p.fetch m r).t = p.t := by
  unfold Ppu.fetch
  split <;> rfl

@[simp] theorem Ppu.background_t (m : Mapper) (p : Ppu) : (p.background m).t = p.t := by
  unfold Ppu.background
  extract_lets p1 p2 p3 p4 p5 p6
  have h1 : p1.t = p.t := by unfold p1; split <;> rfl
  have h2 : p2.t = p1.t := by unfold p2; split <;> rfl
  have h3 : p3.t = p2.t := by unfold p3; split <;> first | exact Ppu.fetch_t .. | rfl
  have h4 : p4.t = p3.t := by unfold p4; split <;> rfl
  have h5 : p5.t = p4.t := by unfold p5; split <;> rfl
  have h6 : p6.t = p5.t := by unfold p6; split <;> rfl
  have h7 : p6.t = p.t := by rw [h6, h5, h4, h3, h2, h1]
  split <;> exact h7

@[simp] theorem Ppu.evaluateFrom_t (p : Ppu) (ns : List Nat) : (p.evaluateFrom ns).t = p.t := by
  induction ns generalizing p with
  | nil => rfl
  | cons n ns ih =>
    simp only [Ppu.evaluateFrom]
    split <;> try split
    all_goals first | rfl | rw [ih] <;> rfl

@[simp] theorem Ppu.sprites_t (m : Mapper) (p : Ppu) : (p.sprites m).t = p.t := by
  unfold Ppu.sprites
  split
  · rfl
  · split
    · exact Ppu.evaluateFrom_t ..
    · split <;> rfl

@[simp] theorem Ppu.render_t (m : Mapper) (p : Ppu) : (p.render m).t = p.t := by
  unfold Ppu.render
  extract_lets p1 p2
  have h1 : p1.t = p.t := by unfold p1; split <;> simp
  have h2 : p2.t = p1.t := by unfold p2; split <;> simp
  have h3 : p2.t = p.t := by rw [h2, h1]
  split <;> exact h3

@[simp] theorem Ppu.step_t (m : Mapper) (p : Ppu) : (p.step m).t = p.t := by
  have h : (p.doDot m).t = p.t := by
    unfold Ppu.doDot
    extract_lets q
    split <;> simp [q]
  unfold Ppu.step Ppu.advance
  split <;> exact h

@[simp] theorem tick_ppu_t (s : State) : (tick s).ppu.t = s.ppu.t := by
  simp [tick, State.dotStep]

/-! ### fineX -/

@[simp] theorem Ppu.status_fineX (p : Ppu) : p.status.fineX = p.fineX := by
  unfold Ppu.status
  split <;> try split
  all_goals rfl

@[simp] theorem Ppu.fetch_fineX (m : Mapper) (p : Ppu) (r : Nat) : (p.fetch m r).fineX = p.fineX := by
  unfold Ppu.fetch
  split <;> rfl

@[simp] theorem Ppu.background_fineX (m : Mapper) (p : Ppu) : (p.background m).fineX = p.fineX := by
  unfold Ppu.background
  extract_lets p1 p2 p3 p4 p5 p6
  have h1 : p1.fineX = p.fineX := by unfold p1; split <;> rfl
  have h2 : p2.fineX = p1.fineX := by unfold p2; split <;> rfl
  have h3 : p3.fineX = p2.fineX := by unfold p3; split <;> first | exact Ppu.fetch_fineX .. | rfl
  have h4 : p4.fineX = p3.fineX := by unfold p4; split <;> rfl
  have h5 : p5.fineX = p4.fineX := by unfold p5; split <;> rfl
  have h6 : p6.fineX = p5.fineX := by unfold p6; split <;> rfl
  have h7 : p6.fineX = p.fineX := by rw [h6, h5, h4, h3, h2, h1]
  split <;> exact h7

@[simp] theorem Ppu.evaluateFrom_fineX (p : Ppu) (ns : List Nat) : (p.evaluateFrom ns).fineX = p.fineX := by
  induction ns generalizing p with
  | nil => rfl
  | cons n ns ih =>
    simp only [Ppu.evaluateFrom]
    split <;> try split
    all_goals first | rfl | rw [ih] <;> rfl

@[simp] theorem Ppu.sprites_fineX (m : Mapper) (p : Ppu) : (p.sprites m).fineX = p.fineX := by
  unfold Ppu.sprites
  split
  · rfl
  · split
    · exact Ppu.evaluateFrom_fineX ..
    · split <;> rfl

@[simp] theorem Ppu.render_fineX (m : Mapper) (p : Ppu) : (p.render m).fineX = p.fineX := by
  unfold Ppu.render
  extract_lets p1 p2
  have h1 : p1.fineX = p.fineX := by unfold p1; split <;> simp
  have h2 : p2.fineX = p1.fineX := by unfold p2; split <;> simp
  have h3 : p2.fineX = p.fineX := by rw [h2, h1]
  split <;> exact h3

@[simp] theorem Ppu.step_fineX (m : Mapper) (p : Ppu) : (p.step m).fineX = p.fineX := by
  have h : (p.doDot m).fineX = p.fineX := by
    unfold Ppu.doDot
    extract_lets q
    split <;> simp [q]
  unfold Ppu.step Ppu.advance
  split <;> exact h

@[simp] theorem tick_ppu_fineX (s : State) : (tick s).ppu.fineX = s.ppu.fineX := by
  simp [tick, State.dotStep]

/-! ### w -/

@[simp] theorem Ppu.status_w (p : Ppu) : p.status.w = p.w := by
  unfold Ppu.status
  split <;> try split
  all_goals rfl

@[simp] theorem Ppu.fetch_w (m : Mapper) (p : Ppu) (r : Nat) : (p.fetch m r).w = p.w := by
  unfold Ppu.fetch
  split <;> rfl

@[simp] theorem Ppu.background_w (m : Mapper) (p : Ppu) : (p.background m).w = p.w := by
  unfold Ppu.background
  extract_lets p1 p2 p3 p4 p5 p6
  have h1 : p1.w = p.w := by unfold p1; split <;> rfl
  have h2 : p2.w = p1.w := by unfold p2; split <;> rfl
  have h3 : p3.w = p2.w := by unfold p3; split <;> first | exact Ppu.fetch_w .. | rfl
  have h4 : p4.w = p3.w := by unfold p4; split <;> rfl
  have h5 : p5.w = p4.w := by unfold p5; split <;> rfl
  have h6 : p6.w = p5.w := by unfold p6; split <;> rfl
  have h7 : p6.w = p.w := by rw [h6, h5, h4, h3, h2, h1]
  split <;> exact h7

@[simp] theorem Ppu.evaluateFrom_w (p : Ppu) (ns : List Nat) : (p.evaluateFrom ns).w = p.w := by
  induction ns generalizing p with
  | nil => rfl
  | cons n ns ih =>
    simp only [Ppu.evaluateFrom]
    split <;> try split
    all_goals first | rfl | rw [ih] <;> rfl

@[simp] theorem Ppu.sprites_w (m : Mapper) (p : Ppu) : (p.sprites m).w = p.w := by
  unfold Ppu.sprites
  split
  · rfl
  · split
    · exact Ppu.evaluateFrom_w ..
    · split <;> rfl

@[simp] theorem Ppu.render_w (m : Mapper) (p : Ppu) : (p.render m).w = p.w := by
  unfold Ppu.render
  extract_lets p1 p2
  have h1 : p1.w = p.w := by unfold p1; split <;> simp
  have h2 : p2.w = p1.w := by unfold p2; split <;> simp
  have h3 : p2.w = p.w := by rw [h2, h1]
  split <;> exact h3

@[simp] theorem Ppu.step_w (m : Mapper) (p : Ppu) : (p.step m).w = p.w := by
  have h : (p.doDot m).w = p.w := by
    unfold Ppu.doDot
    extract_lets q
    split <;> simp [q]
  unfold Ppu.step Ppu.advance
  split <;> exact h

@[simp] theorem tick_ppu_w (s : State) : (tick s).ppu.w = s.ppu.w := by
  simp [tick, State.dotStep]

/-! ### readBuf -/

@[simp] theorem Ppu.status_readBuf (p : Ppu) : p.status.readBuf = p.readBuf := by
  unfold Ppu.status
  split <;> try split
  all_goals rfl

@[simp] theorem Ppu.fetch_readBuf (m : Mapper) (p : Ppu) (r : Nat) : (p.fetch m r).readBuf = p.readBuf := by
  unfold Ppu.fetch
  split <;> rfl

@[simp] theorem Ppu.background_readBuf (m : Mapper) (p : Ppu) : (p.background m).readBuf = p.readBuf := by
  unfold Ppu.background
  extract_lets p1 p2 p3 p4 p5 p6
  have h1 : p1.readBuf = p.readBuf := by unfold p1; split <;> rfl
  have h2 : p2.readBuf = p1.readBuf := by unfold p2; split <;> rfl
  have h3 : p3.readBuf = p2.readBuf := by unfold p3; split <;> first | exact Ppu.fetch_readBuf .. | rfl
  have h4 : p4.readBuf = p3.readBuf := by unfold p4; split <;> rfl
  have h5 : p5.readBuf = p4.readBuf := by unfold p5; split <;> rfl
  have h6 : p6.readBuf = p5.readBuf := by unfold p6; split <;> rfl
  have h7 : p6.readBuf = p.readBuf := by rw [h6, h5, h4, h3, h2, h1]
  split <;> exact h7

@[simp] theorem Ppu.evaluateFrom_readBuf (p : Ppu) (ns : List Nat) : (p.evaluateFrom ns).readBuf = p.readBuf := by
  induction ns generalizing p with
  | nil => rfl
  | cons n ns ih =>
    simp only [Ppu.evaluateFrom]
    split <;> try split
    all_goals first | rfl | rw [ih] <;> rfl

@[simp] theorem Ppu.sprites_readBuf (m : Mapper) (p : Ppu) : (p.sprites m).readBuf = p.readBuf := by
  unfold Ppu.sprites
  split
  · rfl
  · split
    · exact Ppu.evaluateFrom_readBuf ..
    · split <;> rfl

@[simp] theorem Ppu.render_readBuf (m : Mapper) (p : Ppu) : (p.render m).readBuf = p.readBuf := by
  unfold Ppu.render
  extract_lets p1 p2
  have h1 : p1.readBuf = p.readBuf := by unfold p1; split <;> simp
  have h2 : p2.readBuf = p1.readBuf := by unfold p2; split <;> simp
  have h3 : p2.readBuf = p.readBuf := by rw [h2, h1]
  split <;> exact h3

@[simp] theorem Ppu.step_readBuf (m : Mapper) (p : Ppu) : (p.step m).readBuf = p.readBuf := by
  have h : (p.doDot m).readBuf = p.readBuf := by
    unfold Ppu.doDot
    extract_lets q
    split <;> simp [q]
  unfold Ppu.step Ppu.advance
  split <;> exact h

@[simp] theorem tick_ppu_readBuf (s : State) : (tick s).ppu.readBuf = s.ppu.readBuf := by
  simp [tick, State.dotStep]

/-! ### inv -/


theorem Ppu.fetch_inv (m : Mapper) (p : Ppu) (r : Nat) : (p.fetch m r).inv = p.inv := by
  unfold Ppu.fetch
  split <;> rfl

theorem Ppu.background_inv (m : Mapper) (p : Ppu) : (p.background m).inv = p.inv := by
  unfold Ppu.background
  extract_lets p1 p2 p3 p4 p5 p6
  have h1 : p1.inv = p.inv := by unfold p1; split <;> rfl
  clear_value p1
  have h2 : p2.inv = p1.inv := by unfold p2; split <;> rfl
  clear_value p2
  have h3 : p3.inv = p2.inv := by
    unfold p3
    split
    · exact Ppu.fetch_inv ..
    · rfl
  clear_value p3
  have h4 : p4.inv = p3.inv := by unfold p4; split <;> rfl
  clear_value p4
  have h5 : p5.inv = p4.inv := by unfold p5; split <;> rfl
  clear_value p5
  have h6 : p6.inv = p5.inv := by unfold p6; split <;> rfl
  clear_value p6
  have h7 : p6.inv = p.inv := by rw [h6, h5, h4, h3, h2, h1]
  split <;> exact h7

/-! ### The invariant, taken apart -/

/-- The PPU's invariants, one by one (R521). -/
structure Ppu.Ok (p : Ppu) : Prop where
  scanline : p.scanline ≤ 261
  dot : p.dot ≤ 340
  secCount : p.secCount ≤ 8
  spCount : p.spCount ≤ 8
  slots : p.slots.length = 8
  oam : Memory.wf none 256 p.oam = true
  sec : Memory.wf none 32 p.sec = true
  ciram : Memory.wf none 2048 p.ciram = true
  palette : Memory.wf none 32 p.palette = true
  unaliased : paletteUnaliased p.palette = true
  fb : p.fb.wf = true

theorem Ppu.inv_iff (p : Ppu) : p.inv = true ↔ p.Ok := by
  constructor
  · intro h
    simp only [Ppu.inv, Bool.and_eq_true, decide_eq_true_eq] at h
    obtain ⟨⟨⟨⟨⟨⟨⟨⟨⟨⟨h1, h2⟩, h3⟩, h4⟩, h5⟩, h6⟩, h7⟩, h8⟩, h9⟩, h10⟩, h11⟩ := h
    exact ⟨h1, h2, h3, h4, h5, h6, h7, h8, h9, h10, h11⟩
  · rintro ⟨h1, h2, h3, h4, h5, h6, h7, h8, h9, h10, h11⟩
    simp [Ppu.inv, *]

theorem Memory.wf_filled : Memory.wf none 32 ((List.range 32).map (fun k => (k, 0xFF#8))) = true := by decide

/-- A framebuffer stays in canonical form when a pixel of it is written. -/
theorem FrameBuffer.wf_put {fb : FrameBuffer} (h : fb.wf = true) {y x : Nat} (hy : y < 240) (hx : x < 256)
    (c : ColourIndex) : (fb.put y x c).wf = true := by
  simp only [FrameBuffer.wf, Bool.and_eq_true, List.all_eq_true] at h ⊢
  obtain ⟨h, hr⟩ := h
  refine ⟨Memory.wf_write h hy _, fun e he => ?_⟩
  simp only [FrameBuffer.put, Memory.write, reduceCtorEq, if_false] at he
  rcases Memory.mem_insert he with rfl | he
  · have hrow : Memory.wf none 256 ((Memory.find fb.rows y).getD []) = true := by
      cases hf : Memory.find fb.rows y with
      | none => rfl
      | some row => exact (hr (y, row) (Memory.mem_of_find hf)).1
    refine ⟨Memory.wf_write hrow hx c, ?_⟩
    simp only [Memory.insert_isEmpty, Bool.not_false]
  · exact hr e he

theorem Ppu.status_ok {p : Ppu} (h : p.Ok) : p.status.Ok := by
  unfold Ppu.status
  split
  · exact { h with }
  · split
    · exact { h with spCount := Nat.zero_le _ }
    · exact h

theorem Ppu.background_ok {p : Ppu} (m : Mapper) (h : p.Ok) : (p.background m).Ok := by
  rw [← Ppu.inv_iff] at h ⊢
  rw [Ppu.background_inv, h]

theorem Ppu.copySprite_ok {p : Ppu} (h : p.Ok) (hc : p.secCount < 8) (n : Nat) : (p.copySprite n).Ok := by
  refine { h with secCount := by simp only [Ppu.copySprite]; omega, sec := ?_ }
  simp only [Ppu.copySprite]
  exact Memory.wf_write (Memory.wf_write (Memory.wf_write (Memory.wf_write h.sec (by omega) _) (by omega) _) (by omega) _)
    (by omega) _

theorem Ppu.evaluateFrom_ok {p : Ppu} (h : p.Ok) (ns : List Nat) : (p.evaluateFrom ns).Ok := by
  induction ns generalizing p with
  | nil => exact h
  | cons n ns ih =>
    simp only [Ppu.evaluateFrom]
    split
    · split
      · exact ih (Ppu.copySprite_ok h (by assumption) n)
      · exact { h with }
    · exact ih h

theorem Ppu.loadSlots_length (m : Mapper) (p : Ppu) (i : Nat) (l : List SpriteSlot) :
    (p.loadSlots m i l).length = l.length := by
  induction l generalizing i with
  | nil => rfl
  | cons s l ih => simp [Ppu.loadSlots, ih]

theorem Ppu.sprites_ok {p : Ppu} (m : Mapper) (h : p.Ok) : (p.sprites m).Ok := by
  unfold Ppu.sprites
  split
  · exact { h with secCount := Nat.zero_le _, sec := Memory.wf_filled }
  · split
    · exact Ppu.evaluateFrom_ok h _
    · split
      · exact { h with spCount := h.secCount, slots := (Ppu.loadSlots_length ..).trans h.slots }
      · exact h

theorem Ppu.output_ok {p : Ppu} (h : p.Ok) (hl : p.scanline < 240) {x : Nat} (hx : x < 256) : (p.output x).Ok :=
  { h with fb := FrameBuffer.wf_put h.fb hl hx _ }

@[simp] theorem Ppu.evaluateFrom_position (p : Ppu) (ns : List Nat) :
    (p.evaluateFrom ns).scanline = p.scanline ∧ (p.evaluateFrom ns).dot = p.dot := by
  induction ns generalizing p with
  | nil => exact ⟨rfl, rfl⟩
  | cons n ns ih =>
    simp only [Ppu.evaluateFrom]
    split
    · split
      · exact ih (p.copySprite n)
      · exact ⟨rfl, rfl⟩
    · exact ih p

theorem Ppu.sprites_position (m : Mapper) (p : Ppu) :
    (p.sprites m).scanline = p.scanline ∧ (p.sprites m).dot = p.dot := by
  unfold Ppu.sprites
  split
  · exact ⟨rfl, rfl⟩
  · split
    · exact Ppu.evaluateFrom_position ..
    · split <;> exact ⟨rfl, rfl⟩

theorem Ppu.render_ok {p : Ppu} (m : Mapper) (h : p.Ok) : (p.render m).Ok := by
  unfold Ppu.render
  extract_lets p1 p2
  have h1 : p1.Ok := by
    unfold p1
    split
    · exact Ppu.background_ok m h
    · exact h
  have h2 : p2.Ok := by
    unfold p2
    split
    · exact Ppu.sprites_ok m h1
    · exact h1
  split
  · rename_i hd
    simp only [Ppu.visibleLine, Bool.and_eq_true, decide_eq_true_eq] at hd
    exact Ppu.output_ok h2 hd.1 (by omega)
  · exact h2

theorem Ppu.advance_ok {p : Ppu} (h : p.Ok) : p.advance.Ok := by
  have hs := h.scanline
  have ht := h.dot
  unfold Ppu.advance
  split
  · refine { h with scanline := ?_, dot := Nat.zero_le _ }
    show (if p.scanline + 1 = 262 then 0 else p.scanline + 1) ≤ 261
    split <;> omega
  · refine { h with dot := ?_ }
    show p.dot + 1 ≤ 340
    omega

/-- A dot keeps the PPU's invariants. -/
theorem Ppu.step_ok {p : Ppu} (m : Mapper) (h : p.Ok) : (p.step m).Ok := by
  unfold Ppu.step Ppu.doDot
  dsimp only
  split
  · exact Ppu.advance_ok (Ppu.render_ok m (Ppu.status_ok h))
  · exact Ppu.advance_ok (Ppu.status_ok h)

/-! ### What the background work and the sprite work leave -/

/-- Nothing but v and the background pipeline differs (R520). -/
structure Ppu.OnlyBackground (p q : Ppu) : Prop where
  scanline : q.scanline = p.scanline
  dot : q.dot = p.dot
  ctrl : q.ctrl = p.ctrl
  mask : q.mask = p.mask
  vblank : q.vblank = p.vblank
  spr0hit : q.spr0hit = p.spr0hit
  sprOverflow : q.sprOverflow = p.sprOverflow
  oamAddr : q.oamAddr = p.oamAddr
  oam : q.oam = p.oam
  sec : q.sec = p.sec
  secCount : q.secCount = p.secCount
  secHasZero : q.secHasZero = p.secHasZero
  ciram : q.ciram = p.ciram
  palette : q.palette = p.palette
  t : q.t = p.t
  fineX : q.fineX = p.fineX
  w : q.w = p.w
  readBuf : q.readBuf = p.readBuf
  spCount : q.spCount = p.spCount
  slots : q.slots = p.slots
  spZero : q.spZero = p.spZero
  fb : q.fb = p.fb

theorem Ppu.OnlyBackground.refl (p : Ppu) : Ppu.OnlyBackground p p := by
  constructor <;> rfl

theorem Ppu.OnlyBackground.trans {p q r : Ppu} (h : Ppu.OnlyBackground p q) (h' : Ppu.OnlyBackground q r) : Ppu.OnlyBackground p r := by
  obtain ⟨a0, a1, a2, a3, a4, a5, a6, a7, a8, a9, a10, a11, a12, a13, a14, a15, a16, a17, a18, a19, a20, a21⟩ := h
  obtain ⟨b0, b1, b2, b3, b4, b5, b6, b7, b8, b9, b10, b11, b12, b13, b14, b15, b16, b17, b18, b19, b20, b21⟩ := h'
  constructor <;> simp only [*]

theorem Ppu.fetch_only (m : Mapper) (p : Ppu) (r : Nat) : Ppu.OnlyBackground p (p.fetch m r) := by
  unfold Ppu.fetch
  split <;> constructor <;> rfl

/-- The background work of a dot changes v and the background pipeline alone (R565). -/
theorem Ppu.background_only (m : Mapper) (p : Ppu) : Ppu.OnlyBackground p (p.background m) := by
  unfold Ppu.background
  extract_lets p1 p2 p3 p4 p5 p6
  have h1 : Ppu.OnlyBackground p p1 := by unfold p1; split <;> constructor <;> rfl
  clear_value p1
  have h2 : Ppu.OnlyBackground p1 p2 := by unfold p2; split <;> constructor <;> rfl
  clear_value p2
  have h3 : Ppu.OnlyBackground p2 p3 := by
    unfold p3
    split
    · exact Ppu.fetch_only ..
    · exact Ppu.OnlyBackground.refl _
  clear_value p3
  have h4 : Ppu.OnlyBackground p3 p4 := by unfold p4; split <;> constructor <;> rfl
  clear_value p4
  have h5 : Ppu.OnlyBackground p4 p5 := by unfold p5; split <;> constructor <;> rfl
  clear_value p5
  have h6 : Ppu.OnlyBackground p5 p6 := by unfold p6; split <;> constructor <;> rfl
  clear_value p6
  have h7 := ((((h1.trans h2).trans h3).trans h4).trans h5).trans h6
  split
  · exact h7.trans (by constructor <;> rfl)
  · exact h7

/-- Nothing but the sprite pipeline differs (R520). -/
structure Ppu.OnlySprites (p q : Ppu) : Prop where
  scanline : q.scanline = p.scanline
  dot : q.dot = p.dot
  ctrl : q.ctrl = p.ctrl
  mask : q.mask = p.mask
  vblank : q.vblank = p.vblank
  spr0hit : q.spr0hit = p.spr0hit
  oamAddr : q.oamAddr = p.oamAddr
  oam : q.oam = p.oam
  ciram : q.ciram = p.ciram
  palette : q.palette = p.palette
  v : q.v = p.v
  t : q.t = p.t
  fineX : q.fineX = p.fineX
  w : q.w = p.w
  readBuf : q.readBuf = p.readBuf
  ntLatch : q.ntLatch = p.ntLatch
  atLatch : q.atLatch = p.atLatch
  ptLoLatch : q.ptLoLatch = p.ptLoLatch
  ptHiLatch : q.ptHiLatch = p.ptHiLatch
  bgLo : q.bgLo = p.bgLo
  bgHi : q.bgHi = p.bgHi
  atLo : q.atLo = p.atLo
  atHi : q.atHi = p.atHi
  fb : q.fb = p.fb

theorem Ppu.OnlySprites.refl (p : Ppu) : Ppu.OnlySprites p p := by
  constructor <;> rfl

theorem Ppu.OnlySprites.trans {p q r : Ppu} (h : Ppu.OnlySprites p q) (h' : Ppu.OnlySprites q r) : Ppu.OnlySprites p r := by
  obtain ⟨a0, a1, a2, a3, a4, a5, a6, a7, a8, a9, a10, a11, a12, a13, a14, a15, a16, a17, a18, a19, a20, a21, a22,
    a23⟩ := h
  obtain ⟨b0, b1, b2, b3, b4, b5, b6, b7, b8, b9, b10, b11, b12, b13, b14, b15, b16, b17, b18, b19, b20, b21, b22,
    b23⟩ := h'
  constructor <;> simp only [*]

theorem Ppu.evaluateFrom_only (p : Ppu) (ns : List Nat) : Ppu.OnlySprites p (p.evaluateFrom ns) := by
  induction ns generalizing p with
  | nil => exact Ppu.OnlySprites.refl p
  | cons n ns ih =>
    simp only [Ppu.evaluateFrom]
    split
    · split
      · exact Ppu.OnlySprites.trans (by constructor <;> rfl) (ih (p.copySprite n))
      · constructor <;> rfl
    · exact ih p

/-- The sprite work of a dot changes the sprite pipeline alone (R581 to R584). -/
theorem Ppu.sprites_only (m : Mapper) (p : Ppu) : Ppu.OnlySprites p (p.sprites m) := by
  unfold Ppu.sprites
  split
  · constructor <;> rfl
  · split
    · exact Ppu.evaluateFrom_only ..
    · split <;> constructor <;> rfl

end Sys2Proof.Machine
end

