-- ==== Sys2Proof/Laws/Invariant.lean ====
section
/-!
SUPPORT. Laws/Invariant.lean: every shared operation keeps the invariant of the machine's data (Safety.lean
State.inv): ticks, register accesses, bus accesses, the stack, interrupt entry and return, and the addressing modes.
-/

namespace Sys2Proof.Machine

/-! ### The mapper -/

/-- The mapper's invariants, one by one (R620). -/
structure Mapper.Ok (m : Mapper) : Prop where
  prgUnits : 1 ≤ m.prgUnits
  chrUnits : 1 ≤ m.chrUnits
  prgRamUnits : 1 ≤ m.prgRamUnits
  chrRamUnits : m.chrIsRam = true → m.chrUnits = 1
  count : m.count ≤ 4
  prg : Memory.wf (some 0#8) (16384 * m.prgUnits) m.prg = true
  chr : Memory.wf m.chrDefault (8192 * m.chrUnits) m.chr = true
  prgRam : Memory.wf none 8192 m.prgRam = true

theorem Mapper.inv_iff (m : Mapper) : m.inv = true ↔ m.Ok := by
  constructor
  · intro h
    simp only [Mapper.inv, Bool.and_eq_true, Bool.or_eq_true, Bool.not_eq_true', decide_eq_true_eq] at h
    obtain ⟨⟨⟨⟨⟨⟨⟨h1, h2⟩, h3⟩, h4⟩, h5⟩, h6⟩, h7⟩, h8⟩ := h
    exact ⟨h1, h2, h3, fun hr => h4.resolve_left (by simp [hr]), h5, h6, h7, h8⟩
  · rintro ⟨h1, h2, h3, h4, h5, h6, h7, h8⟩
    simp only [Mapper.inv, Bool.and_eq_true, Bool.or_eq_true, Bool.not_eq_true', decide_eq_true_eq]
    refine ⟨⟨⟨⟨⟨⟨⟨h1, h2⟩, h3⟩, ?_⟩, h5⟩, h6⟩, h7⟩, h8⟩
    cases hr : m.chrIsRam
    · exact .inl rfl
    · exact .inr (h4 hr)

theorem Mapper.prgRamWrite_ok {m : Mapper} (h : m.Ok) {k : Nat} (hk : k < 8192) (v : Byte) :
    (m.prgRamWrite k v).Ok := { h with prgRam := Memory.wf_write h.prgRam hk v }

theorem Mapper.loadRegister_ok {m : Mapper} (h : m.Ok) (a : Addr) (r : BitVec 5) : (m.loadRegister a r).Ok := by
  unfold Mapper.loadRegister
  split <;> exact { h with }

theorem Mapper.serialWrite_ok {m : Mapper} (h : m.Ok) (a : Addr) (d : Byte) : (m.serialWrite a d).Ok := by
  unfold Mapper.serialWrite
  split
  · exact { h with count := Nat.zero_le _ }
  · extract_lets sr
    split
    · exact { Mapper.loadRegister_ok h a sr with count := Nat.zero_le _ }
    · refine { h with count := ?_ }
      have := h.count
      show m.count + 1 ≤ 4
      omega

theorem Mapper.prgWrite_ok {m : Mapper} (h : m.Ok) (a : Addr) (d : Byte) : (m.prgWrite a d).Ok := by
  unfold Mapper.prgWrite
  split
  · exact h
  · exact Mapper.serialWrite_ok h a d

/-- A pattern-table address reads inside CHR (R630, R636). -/
theorem Mapper.chrOffset_lt {m : Mapper} (h : m.Ok) {a : VAddr} (ha : a.toNat < 0x2000) :
    m.chrOffset a < 8192 * m.chrUnits := by
  have hu := h.chrUnits
  have bank : ∀ n, n % (2 * m.chrUnits) * 4096 + a.toNat % 4096 < 8192 * m.chrUnits := by
    intro n
    have h1 := Nat.mod_lt n (show 0 < 2 * m.chrUnits by omega)
    have h2 := Nat.mod_lt a.toNat (show 0 < 4096 by omega)
    omega
  unfold Mapper.chrOffset
  split
  · omega
  · extract_lets n4 upper b
    simp only [b, n4]
    split <;> exact bank _

theorem Mapper.chrWrite_ok {m : Mapper} (h : m.Ok) {a : VAddr} (ha : a.toNat < 0x2000) (d : Byte) :
    (m.chrWrite a d).Ok := by
  unfold Mapper.chrWrite
  split
  · rename_i hr
    have hd : m.chrDefault = none := by simp [Mapper.chrDefault, hr]
    refine { h with chr := ?_ }
    show Memory.wf m.chrDefault (8192 * m.chrUnits) _ = true
    have hc := h.chr
    rw [hd] at hc ⊢
    exact Memory.wf_write hc (Mapper.chrOffset_lt h ha) d
  · exact h

theorem Mapper.ppuWrite_ok {m : Mapper} (h : m.Ok) (a : VAddr) (d : Byte) : (m.ppuWrite a d).Ok := by
  unfold Mapper.ppuWrite
  split
  · rename_i ha
    exact Mapper.chrWrite_ok h ha d
  · exact h

/-! ### The PPU's memories -/

/-- The nametable index is inside ciram (R551, R521). -/
theorem ntIndex_lt (mode : Mirroring) (n : Nat) : ntIndex mode n < 2048 := by
  cases mode <;> simp only [ntIndex] <;> omega

/-- The palette index is inside palette RAM and is never an alias (R552). -/
theorem palIndex_spec (a : VAddr) :
    palIndex a < 32 ∧ palIndex a ≠ 0x10 ∧ palIndex a ≠ 0x14 ∧ palIndex a ≠ 0x18 ∧ palIndex a ≠ 0x1C := by
  simp only [palIndex]
  split <;> omega

theorem paletteUnaliased_write {m : Memory ColourIndex} (h : paletteUnaliased m = true) (a : VAddr) (c : ColourIndex) :
    paletteUnaliased (Memory.write none m (palIndex a) c) = true := by
  simp only [paletteUnaliased, List.all_eq_true, Memory.write, reduceCtorEq, if_false] at h ⊢
  intro e he
  rcases Memory.mem_insert he with rfl | he
  · simpa using (palIndex_spec a).2
  · exact h e he

theorem Ppu.memWrite_ok {p : Ppu} (h : p.Ok) (m : Mapper) (a : VAddr) (d : Byte) : (p.memWrite m a d).Ok := by
  unfold Ppu.memWrite
  split
  · exact h
  · split
    · exact { h with ciram := Memory.wf_write h.ciram (ntIndex_lt ..) d }
    · exact { h with
        palette := Memory.wf_write h.palette (palIndex_spec a).1 _
        unaliased := paletteUnaliased_write h.unaliased a _ }

/-! ### The state -/

/-- The invariant, taken apart. -/
structure State.Ok (s : State) : Prop where
  ram : Memory.wf (some s.params.ramPoison) 2048 s.ram = true
  ppu : s.ppu.Ok
  mapper : s.mapper.Ok

theorem State.inv_iff (s : State) : s.inv = true ↔ s.Ok := by
  simp only [State.inv, Bool.and_eq_true, Ppu.inv_iff, Mapper.inv_iff]
  exact ⟨fun ⟨⟨a, b⟩, c⟩ => ⟨a, b, c⟩, fun ⟨a, b, c⟩ => ⟨⟨a, b⟩, c⟩⟩

theorem State.reset_ok : State.reset.Ok := (State.inv_iff _).mp (by decide)

theorem State.Ok.setPpu {s : State} (h : s.Ok) {p : Ppu} (hp : p.Ok) : (s.setPpu p).Ok := ⟨h.ram, hp, h.mapper⟩

theorem State.Ok.setMapper {s : State} (h : s.Ok) {m : Mapper} (hm : m.Ok) : (s.setMapper m).Ok :=
  ⟨h.ram, h.ppu, hm⟩

/-- Only RAM, the PPU, the mapper and the parameters matter to the invariant. -/
theorem State.Ok.congr {s t : State} (h : s.Ok) (hr : t.ram = s.ram) (hq : t.params = s.params) (hp : t.ppu = s.ppu)
    (hm : t.mapper = s.mapper) : t.Ok := by
  refine ⟨?_, ?_, ?_⟩
  · rw [hr, hq]
    exact h.ram
  · rw [hp]
    exact h.ppu
  · rw [hm]
    exact h.mapper

theorem State.Ok.setA {s : State} (h : s.Ok) (v : Byte) : (s.setA v).Ok := ⟨h.ram, h.ppu, h.mapper⟩
theorem State.Ok.setX {s : State} (h : s.Ok) (v : Byte) : (s.setX v).Ok := ⟨h.ram, h.ppu, h.mapper⟩
theorem State.Ok.setY {s : State} (h : s.Ok) (v : Byte) : (s.setY v).Ok := ⟨h.ram, h.ppu, h.mapper⟩
theorem State.Ok.setSp {s : State} (h : s.Ok) (v : Byte) : (s.setSp v).Ok := ⟨h.ram, h.ppu, h.mapper⟩
theorem State.Ok.setPc {s : State} (h : s.Ok) (v : Addr) : (s.setPc v).Ok := ⟨h.ram, h.ppu, h.mapper⟩
theorem State.Ok.setP {s : State} (h : s.Ok) (p : Flags) : (s.setP p).Ok := ⟨h.ram, h.ppu, h.mapper⟩
theorem State.Ok.setNZ {s : State} (h : s.Ok) (v : Byte) : (s.setNZ v).Ok := ⟨h.ram, h.ppu, h.mapper⟩
theorem State.Ok.setC {s : State} (h : s.Ok) (v : Bool) : (s.setC v).Ok := ⟨h.ram, h.ppu, h.mapper⟩
theorem State.Ok.setNmi {s : State} (h : s.Ok) (v : Bool) : (s.setNmi v).Ok := ⟨h.ram, h.ppu, h.mapper⟩
theorem State.Ok.emit {s : State} (h : s.Ok) (e : Event) : (s.emit e).Ok := ⟨h.ram, h.ppu, h.mapper⟩
theorem State.Ok.countDraw {s : State} (h : s.Ok) : s.countDraw.Ok := ⟨h.ram, h.ppu, h.mapper⟩
theorem State.Ok.addCycles {s : State} (h : s.Ok) (n : Int) : (s.addCycles n).Ok := ⟨h.ram, h.ppu, h.mapper⟩

theorem State.Ok.ramWrite {s : State} (h : s.Ok) {k : Nat} (hk : k < 2048) (v : Byte) : (s.ramWrite k v).Ok :=
  ⟨Memory.wf_write h.ram hk v, h.ppu, h.mapper⟩

theorem State.Ok.dotStep {s : State} (h : s.Ok) : s.dotStep.Ok := ⟨h.ram, Ppu.step_ok s.mapper h.ppu, h.mapper⟩

/-- A tick keeps the invariant. -/
theorem State.Ok.tick {s : State} (h : s.Ok) : (tick s).Ok :=
  let h' := h.dotStep.dotStep.dotStep
  ⟨h'.ram, h'.ppu, h'.mapper⟩

theorem State.Ok.ppuRegRead {s : State} (h : s.Ok) (i : Nat) : (ppuRegRead i s).2.Ok := by
  simp only [Machine.ppuRegRead, statusRead, dataRead, Machine.drawByte]
  split <;> try split
  all_goals first
    | exact h
    | exact ⟨h.ram, { h.ppu with }, h.mapper⟩

theorem State.Ok.ppuRegWrite {s : State} (h : s.Ok) (i : Nat) (d : Byte) : (ppuRegWrite i d s).Ok := by
  have hw : (s.ppu.writeScroll d).Ok := by
    unfold Ppu.writeScroll
    split <;> exact { h.ppu with }
  have ha : (s.ppu.writeAddr d).Ok := by
    unfold Ppu.writeAddr
    split <;> exact { h.ppu with }
  have ho : (s.ppu.writeOam d).Ok :=
    { h.ppu with oam := Memory.wf_write h.ppu.oam s.ppu.oamAddr.isLt d }
  have hd : (s.ppu.writeData s.mapper d).Ok := { Ppu.memWrite_ok h.ppu s.mapper s.ppu.dataAddress d with }
  unfold Machine.ppuRegWrite
  split
  · exact h.setPpu { h.ppu with }
  · exact h.setPpu { h.ppu with }
  · exact h.setPpu { h.ppu with }
  · exact h.setPpu ho
  · exact h.setPpu hw
  · exact h.setPpu ha
  · exact (h.setPpu hd).setMapper (Mapper.ppuWrite_ok h.mapper _ d)
  · exact h

/-- A bus read keeps the invariant. -/
theorem State.Ok.busRead {s : State} (h : s.Ok) (a : Addr) : (busRead a s).2.Ok := by
  unfold Machine.busRead
  split
  · exact h
  · exact h.ppuRegRead _
  · exact h
  · exact h
  · exact h.countDraw
  · exact h.countDraw
  · exact h
  · exact h

theorem State.Ok.memRead {s : State} (h : s.Ok) (a : Addr) : (memRead a s).2.Ok := h.tick.busRead a

theorem State.Ok.dmaCopy {s : State} (h : s.Ok) (page : Byte) (n : Nat) : (dmaCopy page n s).Ok := by
  induction n generalizing s with
  | zero => exact h
  | succ n ih => exact ih ((h.memRead _).tick.ppuRegWrite 4 _)

theorem State.Ok.spriteDma {s : State} (h : s.Ok) (page : Byte) : (spriteDma page s).Ok := by
  have hd : ∀ n, (Machine.dmaCopy page n (Machine.tick s)).Ok := fun n => h.tick.dmaCopy page n
  unfold Machine.spriteDma
  generalize 256 = n
  exact hd n

/-- What the decoder's indexes are bounded by (R90). -/
theorem targetOf_ram_lt {a : Addr} {k : Nat} (h : targetOf a = .ram k) : k < 2048 := by
  simp only [targetOf] at h
  split_ifs at h
  cases h
  omega

theorem targetOf_prgRam_lt {a : Addr} {k : Nat} (h : targetOf a = .prgRam k) : k < 8192 := by
  simp only [targetOf] at h
  split_ifs at h
  simp only [Target.prgRam.injEq] at h
  have := a.isLt
  omega

/-- A bus write keeps the invariant. -/
theorem State.Ok.busWrite {s : State} (h : s.Ok) (a : Addr) (v : Byte) : (busWrite a v s).Ok := by
  unfold Machine.busWrite
  split
  · rename_i k hk
    exact h.ramWrite (targetOf_ram_lt hk) v
  · exact h.ppuRegWrite _ v
  · exact h
  · split
    · exact h.spriteDma v
    · exact h
  · split
    · exact h.emit _
    · exact h
  · exact h
  · rename_i k hk
    exact h.setMapper (Mapper.prgRamWrite_ok h.mapper (targetOf_prgRam_lt hk) v)
  · exact h.setMapper (Mapper.prgWrite_ok h.mapper a v)

theorem State.Ok.memWrite {s : State} (h : s.Ok) (a : Addr) (v : Byte) : (memWrite a v s).Ok := h.tick.busWrite a v

theorem State.Ok.read16 {s : State} (h : s.Ok) (a b : Addr) : (read16 a b s).2.Ok := (h.memRead a).memRead b

theorem State.Ok.push {s : State} (h : s.Ok) (v : Byte) : (push v s).Ok := (h.memWrite _ v).setSp _

theorem State.Ok.pull {s : State} (h : s.Ok) : (pull s).2.Ok := (h.setSp _).memRead _

theorem State.Ok.pushWord {s : State} (h : s.Ok) (w : Addr) : (pushWord w s).Ok := (h.push _).push _

theorem State.Ok.pullWord {s : State} (h : s.Ok) : (pullWord s).2.Ok := h.pull.pull

theorem State.Ok.enterVector {s : State} (h : s.Ok) (ret : Addr) (b : Bool) (vec : Addr) :
    (enterVector ret b vec s).Ok := ((((h.pushWord ret).push _).setP _).read16 _ _).setPc _

/-- Interrupt entry keeps the invariant. -/
theorem State.Ok.interrupt {s : State} (h : s.Ok) (k : Interrupt) : (interrupt k s).Ok :=
  h.tick.tick.enterVector _ _ _

theorem State.Ok.returnFromInterrupt {s : State} (h : s.Ok) : (returnFromInterrupt s).Ok :=
  ((h.tick.tick.pull.setP _).pullWord).setPc _

/-! ### The addressing modes and operation classes -/

theorem State.Ok.penalty {s : State} (h : s.Ok) (c : OpClass) (base : Addr) (i : Byte) : (penalty c base i s).Ok := by
  unfold Machine.penalty
  split
  · split
    · exact h.tick
    · exact h
  · exact h.tick
  · exact h.tick

theorem State.Ok.effectiveAddress {s : State} (h : s.Ok) (c : OpClass) (o : Operand) :
    (effectiveAddress c o s).2.Ok := by
  unfold Machine.effectiveAddress
  split
  · exact h
  · exact h.tick
  · exact h.tick
  · exact h
  · exact h.penalty ..
  · exact h.penalty ..
  · exact h.tick.read16 _ _
  · exact (h.read16 _ _).penalty ..

/-- The read class keeps the invariant when its register effect does. -/
theorem State.Ok.readOp {s : State} (h : s.Ok) (f : Byte → State → State) (o : Operand)
    (hf : ∀ m t, t.Ok → (f m t).Ok) : (readOp f o s).Ok := hf _ _ ((h.effectiveAddress .read o).memRead _)

/-- The write class keeps the invariant. -/
theorem State.Ok.writeOp {s : State} (h : s.Ok) (f : State → Byte) (o : Operand) : (writeOp f o s).Ok :=
  (h.effectiveAddress .write o).memWrite _ _

/-- The rmw class keeps the invariant when its effects do. -/
theorem State.Ok.rmwOp {s : State} (h : s.Ok) (f : Byte → State → Byte × State) (g : Byte → State → State) (o : Operand)
    (hf : ∀ m t, t.Ok → (f m t).2.Ok) (hg : ∀ r t, t.Ok → (g r t).Ok) : (rmwOp f g o s).Ok :=
  hg _ _ ((hf _ _ ((h.effectiveAddress .rmw o).memRead _).tick).memWrite _ _)

theorem State.Ok.branch {s : State} (h : s.Ok) (taken : Bool) (d : Byte) : (branch taken d s).Ok := by
  unfold Machine.branch
  dsimp only
  split
  · split
    · exact h.tick.setPc _
    · exact h.tick.tick.setPc _
  · exact h

end Sys2Proof.Machine
end

