-- ==== Sys2Proof/Laws/Access.lean ====
section
/-!
SUPPORT. Laws/Access.lean: what each shared operation leaves, in the terms of Safety.lean: ticks, reads, stores, the
effective addresses, the stack, and the entry and return of interrupts.
-/

namespace Sys2Proof.Machine

/-! ### Ticks -/

@[simp] theorem ticks_zero (s : State) : ticks 0 s = s := rfl
theorem ticks_succ (n : Nat) (s : State) : ticks (n + 1) s = ticks n (tick s) := rfl
theorem ticks_one (s : State) : ticks 1 s = tick s := rfl

theorem ticks_add (n k : Nat) (s : State) : ticks (n + k) s = ticks n (ticks k s) := Function.iterate_add_apply tick n k s

@[simp] theorem ticks_remainingCycles (n : Nat) (s : State) :
    (ticks n s).remainingCycles = s.remainingCycles - n := by
  induction n generalizing s with
  | zero => simp
  | succ n ih =>
    rw [ticks_succ, ih, tick_remainingCycles]
    omega

@[simp] theorem ticks_draws (n : Nat) (s : State) : (ticks n s).draws = s.draws := by
  induction n generalizing s with
  | zero => rfl
  | succ n ih => rw [ticks_succ, ih, tick_draws]

/-- The tick of a state whose registers were written: a tick reads none of them. -/
theorem tick_setSp (s : State) (v : Byte) : tick (s.setSp v) = (tick s).setSp v := rfl
theorem tick_setP (s : State) (p : Flags) : tick (s.setP p) = (tick s).setP p := rfl
theorem tick_setPc (s : State) (a : Addr) : tick (s.setPc a) = (tick s).setPc a := rfl
theorem tick_ramWrite (s : State) (k : Nat) (v : Byte) : tick (s.ramWrite k v) = (tick s).ramWrite k v := rfl

/-! ### Bytes seen from the CPU -/

/-- A byte seen from the CPU depends on RAM, the parameters and the mapper alone. -/
theorem State.peek_congr {s t : State} (hr : t.ram = s.ram) (hp : t.params = s.params) (hm : t.mapper = s.mapper)
    (c : Addr) : t.peek c = s.peek c := by
  simp only [State.peek, State.ramAt, hr, hp, hm]

theorem SameBytes.of_eq {s t : State} (hr : t.ram = s.ram) (hp : t.params = s.params) (hm : t.mapper = s.mapper) :
    SameBytes s t := State.peek_congr hr hp hm

theorem Fixed.refl (s : State) : Fixed s s := ⟨rfl, rfl, rfl, rfl⟩

theorem Fixed.trans {s t u : State} (h : Fixed s t) (h' : Fixed t u) : Fixed s u :=
  ⟨h'.params.trans h.params, h'.irqLine.trans h.irqLine, h'.cartLoaded.trans h.cartLoaded, h'.prg.trans h.prg⟩

theorem OnlyRead.refl (s : State) : OnlyRead s s := ⟨Fixed.refl s, fun _ => rfl, rfl, ⟨rfl, rfl, rfl⟩⟩

theorem OnlyRead.trans {s t u : State} (h : OnlyRead s t) (h' : OnlyRead t u) : OnlyRead s u :=
  ⟨h.fixed.trans h'.fixed, fun c => (h'.bytes c).trans (h.bytes c), h'.mapper.trans h.mapper,
    ⟨h'.memories.oam.trans h.memories.oam, h'.memories.ciram.trans h.memories.ciram,
      h'.memories.palette.trans h.memories.palette⟩⟩

theorem OnlyRead.tick (s : State) : OnlyRead s (tick s) :=
  ⟨⟨rfl, rfl, rfl, rfl⟩, SameBytes.of_eq rfl rfl rfl, rfl,
    ⟨tick_ppu_oam s, tick_ppu_ciram s, tick_ppu_palette s⟩⟩

theorem busRead_onlyRead (a : Addr) (s : State) : OnlyRead s (busRead a s).2 := by
  refine ⟨⟨by simp, by simp, by simp, by simp⟩, SameBytes.of_eq (by simp) (by simp) (by simp), by simp, ?_⟩
  simp only [busRead, ppuRegRead, statusRead, dataRead, drawByte, controllerRead]
  split <;> try split
  all_goals first
    | exact ⟨rfl, rfl, rfl⟩
    | (split <;> exact ⟨rfl, rfl, rfl⟩)

/-- A read access changes no memory and no CPU register. -/
theorem memRead_onlyRead (a : Addr) (s : State) : OnlyRead s (memRead a s).2 :=
  (OnlyRead.tick s).trans (busRead_onlyRead a (tick s))

theorem read16_onlyRead (a b : Addr) (s : State) : OnlyRead s (read16 a b s).2 :=
  (memRead_onlyRead a s).trans (memRead_onlyRead b _)

/-! ### The addressing modes -/

/-- A zero-page pointer is two RAM bytes, and two ticks (R188, R189). -/
theorem zeroPagePointer_eq (b : Byte) (s : State) :
    zeroPagePointer b s = (word (s.ramAt (b + 1#8).toNat) (s.ramAt b.toNat), ticks 2 s) := by
  simp only [zeroPagePointer, read16, memRead_at_ram (targetOf_zext16 _)]
  rfl

theorem penalty_eq (c : OpClass) (a : Addr) (i : Byte) (s : State) :
    penalty c a i s = ticks (if c = .read then (if cross a i then 1 else 0) else 1) s := by
  cases c <;> simp only [penalty, reduceCtorEq, if_true, if_false]
  · split <;> rfl
  · rfl
  · rfl

/-- Finding an effective address takes ticks and nothing else (R185 to R194). -/
theorem effectiveAddress_ticks (c : OpClass) (o : Operand) (s : State) :
    ∃ n, (effectiveAddress c o s).2 = ticks n s := by
  cases o with
  | zp b => exact ⟨0, rfl⟩
  | zpx b => exact ⟨1, rfl⟩
  | zpy b => exact ⟨1, rfl⟩
  | abs a => exact ⟨0, rfl⟩
  | abx a => exact ⟨_, penalty_eq ..⟩
  | aby a => exact ⟨_, penalty_eq ..⟩
  | izx b =>
    refine ⟨3, ?_⟩
    simp only [effectiveAddress, zeroPagePointer_eq]
    rfl
  | izy b =>
    simp only [effectiveAddress, zeroPagePointer_eq, penalty_eq]
    exact ⟨_, (ticks_add _ _ _).symm⟩

@[simp] theorem ticks_a (n : Nat) (s : State) : (ticks n s).a = s.a := by
  induction n generalizing s with
  | zero => rfl
  | succ n ih => exact ih (tick s)
@[simp] theorem ticks_x (n : Nat) (s : State) : (ticks n s).x = s.x := by
  induction n generalizing s with
  | zero => rfl
  | succ n ih => exact ih (tick s)
@[simp] theorem ticks_y (n : Nat) (s : State) : (ticks n s).y = s.y := by
  induction n generalizing s with
  | zero => rfl
  | succ n ih => exact ih (tick s)
@[simp] theorem ticks_sp (n : Nat) (s : State) : (ticks n s).sp = s.sp := by
  induction n generalizing s with
  | zero => rfl
  | succ n ih => exact ih (tick s)
@[simp] theorem ticks_pc (n : Nat) (s : State) : (ticks n s).pc = s.pc := by
  induction n generalizing s with
  | zero => rfl
  | succ n ih => exact ih (tick s)
@[simp] theorem ticks_p (n : Nat) (s : State) : (ticks n s).p = s.p := by
  induction n generalizing s with
  | zero => rfl
  | succ n ih => exact ih (tick s)
@[simp] theorem ticks_ram (n : Nat) (s : State) : (ticks n s).ram = s.ram := by
  induction n generalizing s with
  | zero => rfl
  | succ n ih => exact ih (tick s)
@[simp] theorem ticks_mapper (n : Nat) (s : State) : (ticks n s).mapper = s.mapper := by
  induction n generalizing s with
  | zero => rfl
  | succ n ih => exact ih (tick s)
@[simp] theorem ticks_params (n : Nat) (s : State) : (ticks n s).params = s.params := by
  induction n generalizing s with
  | zero => rfl
  | succ n ih => exact ih (tick s)
@[simp] theorem ticks_irqLine (n : Nat) (s : State) : (ticks n s).irqLine = s.irqLine := by
  induction n generalizing s with
  | zero => rfl
  | succ n ih => exact ih (tick s)
@[simp] theorem ticks_cartLoaded (n : Nat) (s : State) : (ticks n s).cartLoaded = s.cartLoaded := by
  induction n generalizing s with
  | zero => rfl
  | succ n ih => exact ih (tick s)

theorem OnlyRead.ticks (n : Nat) (s : State) : OnlyRead s (ticks n s) := by
  induction n generalizing s with
  | zero => exact OnlyRead.refl s
  | succ n ih => exact (OnlyRead.tick s).trans (ih _)

theorem State.Ok.ticks {s : State} (h : s.Ok) (n : Nat) : (ticks n s).Ok := by
  induction n generalizing s with
  | zero => exact h
  | succ n ih => exact ih h.tick

theorem Waited.ticks (n : Nat) (s : State) : Waited n s (ticks n s) :=
  ⟨(OnlyRead.ticks n s).fixed, ⟨rfl, rfl, rfl, rfl, rfl⟩, ticks_mapper n s, ticks_remainingCycles n s⟩

/-- Two ticked states' time is one ticked state's. -/
theorem Waited.trans {n k : Nat} {s t u : State} (h : Waited n s t) (h' : Waited k (Machine.ticks n s) u)
    (hf : Fixed t u) : Waited (n + k) s u := by
  refine ⟨h.fixed.trans hf, ?_, h'.mapper.trans (ticks_mapper n s), ?_⟩
  · rw [Nat.add_comm, ticks_add]
    exact h'.devices
  · rw [h'.cycles, ticks_remainingCycles]
    push_cast
    omega

/-! ### Stores -/

theorem sameCell_iff (a b : Addr) : sameCell a b = true ↔ targetOf a = targetOf b := by simp [sameCell]

theorem not_sameCell_iff (a b : Addr) : sameCell a b = false ↔ targetOf a ≠ targetOf b := by simp [sameCell]

/-- A RAM byte after a RAM write. -/
theorem ramAt_ramWrite {s : State} (h : s.Ok) (k j : Nat) (v : Byte) :
    (s.ramWrite k v).ramAt j = if j = k then v else s.ramAt j :=
  Memory.read_write (Memory.rises_of_wf h.ram) k j v

/-- Every byte after a RAM write through address `a` (R91). -/
theorem peek_ramWrite {s : State} (h : s.Ok) {a : Addr} {k : Nat} (ha : targetOf a = .ram k) (v : Byte) (c : Addr) :
    (s.ramWrite k v).peek c = if sameCell c a then some v else s.peek c := by
  by_cases hc : targetOf c = targetOf a
  · have hs : sameCell c a = true := (sameCell_iff c a).mpr hc
    rw [if_pos hs]
    simp only [State.peek, hc, ha, ramAt_ramWrite h, if_true]
  · have hs : sameCell c a = false := (not_sameCell_iff c a).mpr hc
    rw [if_neg (by simp [hs])]
    simp only [State.peek]
    split <;> rename_i heq <;> try rfl
    rw [ramAt_ramWrite h, if_neg]
    rintro rfl
    exact hc (heq.trans ha.symm)

/-- Every byte after a PRG-RAM write through address `a` (R626). -/
theorem peek_prgRamWrite {s : State} {a : Addr} {k : Nat} (ha : targetOf a = .prgRam k) (v : Byte) (c : Addr) :
    (s.setMapper (s.mapper.prgRamWrite k v)).peek c = if sameCell c a then some v else s.peek c := by
  by_cases hc : targetOf c = targetOf a
  · have hs : sameCell c a = true := (sameCell_iff c a).mpr hc
    rw [if_pos hs]
    simp only [State.peek, hc, ha, State.setMapper_mapper, Mapper.prgRamRead, Mapper.prgRamWrite,
      Memory.read_write_none, if_true]
  · have hs : sameCell c a = false := (not_sameCell_iff c a).mpr hc
    rw [if_neg (by simp [hs])]
    simp only [State.peek]
    split <;> rename_i heq <;> try rfl
    simp only [State.setMapper_mapper, Mapper.prgRamRead, Mapper.prgRamWrite, Memory.read_write_none]
    rw [if_neg]
    rintro rfl
    exact hc (heq.trans ha.symm)

/-- A PPU register write changes the PPU, and CHR through index 7. -/
theorem ppuRegWrite_effect (i : Nat) (d : Byte) (s : State) :
    (∃ p, ppuRegWrite i d s = s.setPpu p) ∧ i ≠ 7 ∨
      i = 7 ∧ ∃ p c, ppuRegWrite i d s = (s.setPpu p).setMapper { s.mapper with chr := c } := by
  by_cases hi : i = 7
  · subst hi
    refine .inr ⟨rfl, s.ppu.writeData s.mapper d, (s.mapper.ppuWrite s.ppu.dataAddress d).chr, ?_⟩
    show (s.setPpu _).setMapper _ = _
    congr 1
    simp only [Mapper.ppuWrite, Mapper.chrWrite]
    split
    · split <;> rfl
    · rfl
  · refine .inl ⟨?_, hi⟩
    unfold ppuRegWrite
    split
    all_goals first
      | exact ⟨_, rfl⟩
      | exact absurd rfl hi

/-- The memories of the PPU after a register write: only index 4 writes OAM, only index 7 video memory. -/
theorem ppuRegWrite_memories (i : Nat) (d : Byte) (s : State) :
    (i ≠ 4 → (ppuRegWrite i d s).ppu.oam = s.ppu.oam) ∧ (i ≠ 7 → (ppuRegWrite i d s).ppu.ciram = s.ppu.ciram) ∧
      (i ≠ 7 → (ppuRegWrite i d s).ppu.palette = s.ppu.palette) := by
  have hs : (s.ppu.writeScroll d).oam = s.ppu.oam ∧ (s.ppu.writeScroll d).ciram = s.ppu.ciram ∧
      (s.ppu.writeScroll d).palette = s.ppu.palette := by
    unfold Ppu.writeScroll
    split <;> exact ⟨rfl, rfl, rfl⟩
  have ha : (s.ppu.writeAddr d).oam = s.ppu.oam ∧ (s.ppu.writeAddr d).ciram = s.ppu.ciram ∧
      (s.ppu.writeAddr d).palette = s.ppu.palette := by
    unfold Ppu.writeAddr
    split <;> exact ⟨rfl, rfl, rfl⟩
  have hd : (s.ppu.writeData s.mapper d).oam = s.ppu.oam := by
    simp only [Ppu.writeData, Ppu.memWrite]
    split
    · rfl
    · split <;> rfl
  unfold ppuRegWrite
  split
  · exact ⟨fun _ => rfl, fun _ => rfl, fun _ => rfl⟩
  · exact ⟨fun _ => rfl, fun _ => rfl, fun _ => rfl⟩
  · exact ⟨fun _ => rfl, fun _ => rfl, fun _ => rfl⟩
  · exact ⟨fun h => absurd rfl h, fun _ => rfl, fun _ => rfl⟩
  · exact ⟨fun _ => hs.1, fun _ => hs.2.1, fun _ => hs.2.2⟩
  · exact ⟨fun _ => ha.1, fun _ => ha.2.1, fun _ => ha.2.2⟩
  · exact ⟨fun _ => hd, fun h => absurd rfl h, fun h => absurd rfl h⟩
  · exact ⟨fun _ => rfl, fun _ => rfl, fun _ => rfl⟩

theorem ppuRegWrite_oam_mapper (d : Byte) (s : State) : (ppuRegWrite 4 d s).mapper = s.mapper := rfl

@[simp] theorem dmaCopy_mapper (page : Byte) (n : Nat) (s : State) : (dmaCopy page n s).mapper = s.mapper := by
  induction n generalizing s with
  | zero => rfl
  | succ n ih =>
    simp only [dmaCopy, ih, ppuRegWrite_oam_mapper, tick_mapper, memRead_mapper]

@[simp] theorem dmaCopy_ciram (page : Byte) (n : Nat) (s : State) :
    (dmaCopy page n s).ppu.ciram = s.ppu.ciram := by
  induction n generalizing s with
  | zero => rfl
  | succ n ih =>
    simp only [dmaCopy, ih]
    rw [(ppuRegWrite_memories 4 _ _).2.1 (by decide), tick_ppu_ciram]
    exact (memRead_onlyRead _ s).memories.ciram

@[simp] theorem dmaCopy_palette (page : Byte) (n : Nat) (s : State) :
    (dmaCopy page n s).ppu.palette = s.ppu.palette := by
  induction n generalizing s with
  | zero => rfl
  | succ n ih =>
    simp only [dmaCopy, ih]
    rw [(ppuRegWrite_memories 4 _ _).2.2 (by decide), tick_ppu_palette]
    exact (memRead_onlyRead _ s).memories.palette

@[simp] theorem Mapper.loadRegister_prg (m : Mapper) (a : Addr) (r : BitVec 5) : (m.loadRegister a r).prg = m.prg := by
  unfold Mapper.loadRegister
  split <;> rfl

/-- The mapper's PRG image is never written (R626). -/
@[simp] theorem Mapper.serialWrite_prg (m : Mapper) (a : Addr) (d : Byte) : (m.serialWrite a d).prg = m.prg := by
  unfold Mapper.serialWrite
  split
  · rfl
  · extract_lets sr
    split
    · exact Mapper.loadRegister_prg m a sr
    · rfl

@[simp] theorem Mapper.prgWrite_prg (m : Mapper) (a : Addr) (d : Byte) : (m.prgWrite a d).prg = m.prg := by
  unfold Mapper.prgWrite
  split
  · rfl
  · exact Mapper.serialWrite_prg m a d

/-- What a store leaves when it reaches neither memory nor the MMC1's port. -/
theorem Stored.elsewhere {ea : Addr} {v : Byte} {s t : State} (hw : writable ea = false) (hp : targetOf ea ≠ .prgRom)
    (hf : Fixed s t) (hr : t.ram = s.ram) (hm : ∃ c, t.mapper = { s.mapper with chr := c })
    (hchr : targetOf ea ≠ .ppu 7 → t.mapper.chr = s.mapper.chr)
    (ho : targetOf ea ≠ .ppu 4 → targetOf ea ≠ .dma → t.ppu.oam = s.ppu.oam)
    (hc : targetOf ea ≠ .ppu 7 → t.ppu.ciram = s.ppu.ciram)
    (hq : targetOf ea ≠ .ppu 7 → t.ppu.palette = s.ppu.palette) : Stored ea v s t where
  fixed := hf
  cell h := by simp [hw] at h
  others c _ := by
    obtain ⟨d, hd⟩ := hm
    simp only [State.peek, State.ramAt, hr, hf.params, hd]
    rfl
  serial h := absurd h hp
  rom h := absurd h hp
  mapper _ := hm.imp' (fun _ => s.mapper.prgRam) fun c h => ⟨c, h⟩
  chr _ := hchr
  oam := ho
  ciram := hc
  palette := hq

/-- What one bus write does (R90). -/
theorem busWrite_stored {s : State} (h : s.Ok) (ea : Addr) (v : Byte) : Stored ea v s (busWrite ea v s) := by
  cases ht : targetOf ea with
  | ram k =>
    have e : busWrite ea v s = s.ramWrite k v := by simp [busWrite, ht]
    rw [e]
    refine { fixed := ⟨rfl, rfl, rfl, rfl⟩, cell := ?_, others := ?_, serial := ?_, rom := ?_, mapper := ?_, chr := ?_,
             oam := ?_, ciram := ?_, palette := ?_ }
    · intro _ c hc
      rw [peek_ramWrite h ht, if_pos hc]
    · intro c hc
      rw [peek_ramWrite h ht, if_neg (by simp [hc])]
    · simp [ht]
    · simp [ht]
    · exact fun _ => ⟨_, _, rfl⟩
    all_goals intros; rfl
  | prgRam k =>
    have e : busWrite ea v s = s.setMapper (s.mapper.prgRamWrite k v) := by simp [busWrite, ht]
    rw [e]
    refine { fixed := ⟨rfl, rfl, rfl, rfl⟩, cell := ?_, others := ?_, serial := ?_, rom := ?_, mapper := ?_, chr := ?_,
             oam := ?_, ciram := ?_, palette := ?_ }
    · intro _ c hc
      rw [peek_prgRamWrite ht, if_pos hc]
    · intro c hc
      rw [peek_prgRamWrite ht, if_neg (by simp [hc])]
    · simp [ht]
    · simp [ht]
    · exact fun _ => ⟨_, _, rfl⟩
    all_goals intros; rfl
  | prgRom =>
    have e : busWrite ea v s = s.setMapper (s.mapper.prgWrite ea v) := by simp [busWrite, ht]
    rw [e]
    refine { fixed := ⟨rfl, rfl, rfl, by simp⟩, cell := ?_, others := ?_, serial := ?_, rom := ?_, mapper := ?_,
             chr := ?_, oam := ?_, ciram := ?_, palette := ?_ }
    · simp [writable, ht]
    · intro c hc
      rw [not_sameCell_iff, ht] at hc
      simp only [State.peek]
      split <;> rename_i heq <;> try rfl
      · rename_i k
        show some ((s.mapper.prgWrite ea v).prgRamRead k) = _
        have : (s.mapper.prgWrite ea v).prgRam = s.mapper.prgRam := by
          simp only [Mapper.prgWrite, Mapper.serialWrite, Mapper.loadRegister]
          repeat' split
          all_goals rfl
        simp only [Mapper.prgRamRead, this]
      · exact absurd heq hc
    · exact fun _ => rfl
    · intro _ hk c
      have : s.mapper.prgWrite ea v = s.mapper := by simp [Mapper.prgWrite, hk]
      rw [this]
      rfl
    · simp [ht]
    · simp [ht]
    all_goals intros; rfl
  | ppu i =>
    have e : busWrite ea v s = ppuRegWrite i v s := by simp [busWrite, ht]
    rw [e]
    have hmem := ppuRegWrite_memories i v s
    have heff := ppuRegWrite_effect i v s
    have hmap : ∃ c, (ppuRegWrite i v s).mapper = { s.mapper with chr := c } := by
      rcases heff with ⟨⟨p, hp⟩, _⟩ | ⟨_, p, c, hp⟩
      · exact ⟨s.mapper.chr, by rw [hp]; rfl⟩
      · exact ⟨c, by rw [hp]; rfl⟩
    refine Stored.elsewhere (by simp [writable, ht]) (by simp [ht]) ?_ (by simp) hmap ?_ ?_ ?_ ?_
    · refine ⟨by simp, by simp, by simp, ?_⟩
      obtain ⟨c, hc⟩ := hmap
      rw [hc]
    · intro h7
      rcases heff with ⟨⟨p, hp⟩, _⟩ | ⟨rfl, _⟩
      · rw [hp]
        rfl
      · exact absurd ht h7
    · intro h4 _
      exact hmem.1 (by rintro rfl; exact h4 ht)
    · intro h7
      exact hmem.2.1 (by rintro rfl; exact h7 ht)
    · intro h7
      exact hmem.2.2 (by rintro rfl; exact h7 ht)
  | apu =>
    have e : busWrite ea v s = s := by simp [busWrite, ht]
    rw [e]
    exact Stored.elsewhere (by simp [writable, ht]) (by simp [ht]) (Fixed.refl s) rfl ⟨_, rfl⟩ (fun _ => rfl)
      (fun _ _ => rfl) (fun _ => rfl) (fun _ => rfl)
  | undriven =>
    have e : busWrite ea v s = s := by simp [busWrite, ht]
    rw [e]
    exact Stored.elsewhere (by simp [writable, ht]) (by simp [ht]) (Fixed.refl s) rfl ⟨_, rfl⟩ (fun _ => rfl)
      (fun _ _ => rfl) (fun _ => rfl) (fun _ => rfl)
  | controller port =>
    have e : busWrite ea v s = if port = 0 then s.emit (.controllerStrobe v) else s := by simp [busWrite, ht]
    rw [e]
    split
    · exact Stored.elsewhere (by simp [writable, ht]) (by simp [ht]) ⟨rfl, rfl, rfl, rfl⟩ rfl ⟨_, rfl⟩ (fun _ => rfl)
        (fun _ _ => rfl) (fun _ => rfl) (fun _ => rfl)
    · exact Stored.elsewhere (by simp [writable, ht]) (by simp [ht]) (Fixed.refl s) rfl ⟨_, rfl⟩ (fun _ => rfl)
        (fun _ _ => rfl) (fun _ => rfl) (fun _ => rfl)
  | dma =>
    have e : busWrite ea v s = if s.params.oamDmaEnabled then dmaCopy v 256 (tick s) else s := by
      simp [busWrite, ht, spriteDma]
    rw [e]
    generalize 256 = n
    split
    · refine Stored.elsewhere (by simp [writable, ht]) (by simp [ht]) ⟨by simp, by simp, by simp, by simp⟩ (by simp)
        ⟨s.mapper.chr, by simp⟩ (fun _ => by simp) (fun _ h => absurd ht h) (fun _ => by simp) (fun _ => by simp)
    · exact Stored.elsewhere (by simp [writable, ht]) (by simp [ht]) (Fixed.refl s) rfl ⟨_, rfl⟩ (fun _ => rfl)
        (fun _ _ => rfl) (fun _ => rfl) (fun _ => rfl)

/-- A store after reads is the same store. -/
theorem Stored.after {ea : Addr} {v : Byte} {s u t : State} (h : OnlyRead s u) (h' : Stored ea v u t) :
    Stored ea v s t where
  fixed := h.fixed.trans h'.fixed
  cell := h'.cell
  others c hc := (h'.others c hc).trans (h.bytes c)
  serial ht := by rw [h'.serial ht, h.mapper]
  rom ht hk c := (h'.rom ht (by rw [h.mapper, hk]) c).trans (h.bytes c)
  mapper ht := by
    have := h'.mapper ht
    rwa [h.mapper] at this
  chr ht h7 := (h'.chr ht h7).trans (by rw [h.mapper])
  oam h4 hd := (h'.oam h4 hd).trans h.memories.oam
  ciram h7 := (h'.ciram h7).trans h.memories.ciram
  palette h7 := (h'.palette h7).trans h.memories.palette

/-- A store is seen the same whatever is written to the registers after it. -/
theorem Stored.registers {ea : Addr} {v : Byte} {s t u : State} (h : Stored ea v s t) (hr : u.ram = t.ram)
    (hp : u.params = t.params) (hi : u.irqLine = t.irqLine) (hl : u.cartLoaded = t.cartLoaded)
    (hm : u.mapper = t.mapper) (hq : u.ppu = t.ppu) : Stored ea v s u := by
  have hb := State.peek_congr hr hp hm
  refine { fixed := ⟨hp.trans h.fixed.params, hi.trans h.fixed.irqLine, hl.trans h.fixed.cartLoaded, ?_⟩,
           cell := fun hw c hc => (hb c).trans (h.cell hw c hc), others := fun c hc => (hb c).trans (h.others c hc),
           serial := fun ht => hm.trans (h.serial ht), rom := fun ht hk c => (hb c).trans (h.rom ht hk c),
           mapper := ?_, chr := ?_, oam := ?_, ciram := ?_, palette := ?_ }
  · rw [hm]
    exact h.fixed.prg
  · rw [hm]
    exact h.mapper
  · rw [hm]
    exact h.chr
  · rw [hq]
    exact h.oam
  · rw [hq]
    exact h.ciram
  · rw [hq]
    exact h.palette

/-- What one write access does, its tick included. -/
theorem memWrite_stored {s : State} (h : s.Ok) (ea : Addr) (v : Byte) : Stored ea v s (memWrite ea v s) :=
  (busWrite_stored h.tick ea v).after (OnlyRead.tick s)

/-! ### Accesses read no flag -/

theorem ppuRegWrite_setP (i : Nat) (d : Byte) (s : State) (p : Flags) :
    ppuRegWrite i d (s.setP p) = (ppuRegWrite i d s).setP p := by
  unfold ppuRegWrite
  split <;> rfl

theorem dataRead_setP (s : State) (p : Flags) : dataRead (s.setP p) = ((dataRead s).1, (dataRead s).2.setP p) := by
  by_cases h : s.ppu.dataAddress.toNat < 0x3F00
  · have h' : (s.setP p).ppu.dataAddress.toNat < 0x3F00 := h
    unfold dataRead
    simp only [if_pos h, if_pos h']
    rfl
  · have h' : ¬ (s.setP p).ppu.dataAddress.toNat < 0x3F00 := h
    unfold dataRead
    simp only [if_neg h, if_neg h']
    rfl

theorem ppuRegRead_setP (i : Nat) (s : State) (p : Flags) :
    ppuRegRead i (s.setP p) = ((ppuRegRead i s).1, (ppuRegRead i s).2.setP p) := by
  unfold ppuRegRead
  split
  · rfl
  · rfl
  · exact dataRead_setP s p
  · rfl

theorem busRead_setP (a : Addr) (s : State) (p : Flags) :
    busRead a (s.setP p) = ((busRead a s).1, (busRead a s).2.setP p) := by
  unfold busRead
  split <;> first | rfl | exact ppuRegRead_setP ..

theorem memRead_setP (a : Addr) (s : State) (p : Flags) :
    memRead a (s.setP p) = ((memRead a s).1, (memRead a s).2.setP p) := busRead_setP a (tick s) p

theorem dmaCopy_setP (page : Byte) (n : Nat) (s : State) (p : Flags) :
    dmaCopy page n (s.setP p) = (dmaCopy page n s).setP p := by
  induction n generalizing s with
  | zero => rfl
  | succ n ih => simp only [dmaCopy, memRead_setP, tick_setP, ppuRegWrite_setP, ih]

theorem busWrite_setP (a : Addr) (v : Byte) (s : State) (p : Flags) :
    busWrite a v (s.setP p) = (busWrite a v s).setP p := by
  unfold busWrite spriteDma
  generalize 256 = n
  split
  · rfl
  · exact ppuRegWrite_setP ..
  · rfl
  · show (if s.params.oamDmaEnabled = true then _ else _) = _
    split
    · rw [tick_setP, dmaCopy_setP]
    · rfl
  · split <;> rfl
  · rfl
  · rfl
  · rfl

/-- A store reads no flag: it and a write of the flags can be exchanged. -/
theorem memWrite_setP (a : Addr) (v : Byte) (s : State) (p : Flags) :
    memWrite a v (s.setP p) = (memWrite a v s).setP p := by
  unfold memWrite
  rw [tick_setP, busWrite_setP]

/-! ### Stores to the stack -/

/-- A byte pushed: one store, one tick, S one less (R35). -/
theorem push_bytes {s : State} (h : s.Ok) (v : Byte) : BytesAfter [(stackAddr s.sp, v)] s (push v s) := by
  intro c
  rw [push_eq]
  have hp : (((tick s).ramWrite (0x100 + s.sp.toNat) v).setSp (s.sp - 1#8)).peek c =
      ((tick s).ramWrite (0x100 + s.sp.toNat) v).peek c := State.peek_congr rfl rfl rfl c
  rw [hp, peek_ramWrite h.tick (targetOf_stackAddr s.sp)]
  have hs : sameCell (stackAddr s.sp) c = sameCell c (stackAddr s.sp) := by simp [sameCell, eq_comm]
  simp only [List.find?_cons, List.find?_nil, hs]
  cases sameCell c (stackAddr s.sp)
  · simpa using (OnlyRead.tick s).bytes c
  · simp

/-- Stores one after the other are one list of stores, the newest first. -/
theorem BytesAfter.trans {l m : List (Addr × Byte)} {s t u : State} (h : BytesAfter l s t) (h' : BytesAfter m t u) :
    BytesAfter (m ++ l) s u := by
  intro c
  rw [h' c, List.find?_append]
  cases m.find? (fun e => sameCell e.1 c) with
  | some e => rfl
  | none => exact h c

theorem BytesAfter.of_same {l : List (Addr × Byte)} {s t u : State} (h : BytesAfter l s t) (h' : SameBytes t u) :
    BytesAfter l s u := fun c => (h' c).trans (h c)

/-- A push after its tick. -/
theorem push_ticks (v : Byte) (s : State) : DevicesAs (ticks 1 s) (push v s) := by
  rw [push_eq]
  exact ⟨rfl, rfl, rfl, rfl, rfl⟩

/-! ### The stack and interrupts, each in one equation -/

theorem ticks_setSp (n : Nat) (s : State) (v : Byte) : ticks n (s.setSp v) = (ticks n s).setSp v := by
  induction n generalizing s with
  | zero => rfl
  | succ n ih => rw [ticks_succ, ticks_succ, tick_setSp, ih]

theorem ticks_setP (n : Nat) (s : State) (p : Flags) : ticks n (s.setP p) = (ticks n s).setP p := by
  induction n generalizing s with
  | zero => rfl
  | succ n ih => rw [ticks_succ, ticks_succ, tick_setP, ih]

theorem ticks_setPc (n : Nat) (s : State) (a : Addr) : ticks n (s.setPc a) = (ticks n s).setPc a := by
  induction n generalizing s with
  | zero => rfl
  | succ n ih => rw [ticks_succ, ticks_succ, tick_setPc, ih]

theorem ticks_ramWrite (n : Nat) (s : State) (k : Nat) (v : Byte) :
    ticks n (s.ramWrite k v) = (ticks n s).ramWrite k v := by
  induction n generalizing s with
  | zero => rfl
  | succ n ih => rw [ticks_succ, ticks_succ, tick_ramWrite, ih]

/-- The stack slot `k` bytes below S. -/
def stackIndex (sp : Byte) (k : Nat) : Nat := 0x100 + (sp - BitVec.ofNat 8 k).toNat

/-- Two bytes pushed, the high one first (R82). -/
theorem pushWord_eq (a : Addr) (s : State) :
    pushWord a s = (((ticks 2 s).ramWrite (stackIndex s.sp 0) (hi8 a)).ramWrite (stackIndex s.sp 1) (lo8 a)).setSp
      (s.sp - 2#8) := by
  have h0 : s.sp - 0#8 = s.sp := by simp
  have h2 : s.sp - 1#8 - 1#8 = s.sp - 2#8 := by rw [BitVec.sub_sub]; rfl
  simp only [pushWord, push_eq, tick_setSp, tick_ramWrite, State.setSp_sp, stackIndex, h0, h2]
  rfl

/-- Two bytes pulled, the low one first (R82). -/
theorem pullWord_eq (s : State) :
    pullWord s = (word (s.ramAt (0x100 + (s.sp + 2#8).toNat)) (s.ramAt (0x100 + (s.sp + 1#8).toNat)),
      (ticks 2 s).setSp (s.sp + 2#8)) := by
  have h2 : s.sp + 1#8 + 1#8 = s.sp + 2#8 := by rw [BitVec.add_assoc]; rfl
  simp only [pullWord, pull_eq, tick_setSp, State.setSp_sp, h2]
  rfl

/-- A word read from PRG ROM (R625). -/
theorem read16_at_prgRom {a b : Addr} (ha : targetOf a = .prgRom) (hb : targetOf b = .prgRom) (s : State) :
    read16 a b s = (word (s.mapper.prgRead b) (s.mapper.prgRead a), ticks 2 s) := by
  simp only [read16, memRead_at_prgRom ha, memRead_at_prgRom hb]
  rfl

theorem targetOf_vector {a : Addr} (h : 0x8000 ≤ a.toNat) : targetOf a = .prgRom := by
  unfold targetOf
  simp only
  split_ifs <;> first | omega | rfl

@[simp] theorem setSp_ramAt (s : State) (v : Byte) (k : Nat) : (s.setSp v).ramAt k = s.ramAt k := rfl
@[simp] theorem setP_ramAt (s : State) (p : Flags) (k : Nat) : (s.setP p).ramAt k = s.ramAt k := rfl
@[simp] theorem setPc_ramAt (s : State) (a : Addr) (k : Nat) : (s.setPc a).ramAt k = s.ramAt k := rfl
@[simp] theorem tick_ramAt (s : State) (k : Nat) : (tick s).ramAt k = s.ramAt k := by
  simp only [State.ramAt, tick_ram, tick_params]
@[simp] theorem ticks_ramAt (n : Nat) (s : State) (k : Nat) : (ticks n s).ramAt k = s.ramAt k := by
  simp only [State.ramAt, ticks_ram, ticks_params]

/-- Entering a vector (R400, R469): three bytes pushed, I set, S three less, the pc from the vector, in five ticks. -/
theorem enterVector_eq {vec : Addr} (h : targetOf vec = .prgRom) (h' : targetOf (vec + 1#16) = .prgRom) (ret : Addr)
    (b : Bool) (s : State) :
    enterVector ret b vec s =
      ((((((ticks 5 s).ramWrite (stackIndex s.sp 0) (hi8 ret)).ramWrite (stackIndex s.sp 1) (lo8 ret)).ramWrite
        (stackIndex s.sp 2) (s.p.pack b)).setSp (s.sp - 3#8)).setP (s.p.setI true)).setPc
        (word (s.mapper.prgRead (vec + 1#16)) (s.mapper.prgRead vec)) := by
  have h3 : s.sp - 2#8 - 1#8 = s.sp - 3#8 := by rw [BitVec.sub_sub]; rfl
  simp only [enterVector, read16_at_prgRom h h', pushWord_eq, push_eq, ticks_setP, ticks_setSp, ticks_ramWrite,
    State.setSp_sp, h3, State.ramWrite_p, State.ramWrite_mapper, State.setSp_p, State.setSp_mapper, State.setP_mapper,
    ticks_p, ticks_mapper, ← ticks_one, ← ticks_add]
  rfl

/-- The return from an interrupt (R401): three bytes pulled, in five ticks. -/
theorem returnFromInterrupt_eq (s : State) :
    returnFromInterrupt s =
      (((ticks 5 s).setSp (s.sp + 3#8)).setP (unpack (s.ramAt (0x100 + (s.sp + 1#8).toNat)))).setPc
        (word (s.ramAt (0x100 + (s.sp + 3#8).toNat)) (s.ramAt (0x100 + (s.sp + 2#8).toNat))) := by
  have h2 : s.sp + 1#8 + 1#8 = s.sp + 2#8 := by rw [BitVec.add_assoc]; rfl
  have h3 : s.sp + 1#8 + 2#8 = s.sp + 3#8 := by rw [BitVec.add_assoc]; rfl
  simp only [returnFromInterrupt, pull_eq, pullWord_eq, ticks_setP, ticks_setSp, tick_setSp, State.setSp_sp, State.setP_sp,
    tick_sp, h2, h3, setSp_ramAt, setP_ramAt, tick_ramAt]
  rfl

end Sys2Proof.Machine
end

