-- ==== Sys2Proof/Laws/Dots.lean ====
section
/-!
SUPPORT. Laws/Dots.lean: one dot of the PPU taken apart: its stages, what the background pipeline leaves in its latches
and shifters, what the sprite stages leave in secondary OAM and the slots, and what a pixel's output leaves.
-/

namespace Sys2Proof.Machine

/-! ### The stages of a dot -/

@[simp] theorem Ppu.status_dot (p : Ppu) : p.status.dot = p.dot := by
  unfold Ppu.status; split; rfl; split <;> rfl
@[simp] theorem Ppu.status_scanline (p : Ppu) : p.status.scanline = p.scanline := by
  unfold Ppu.status; split; rfl; split <;> rfl
@[simp] theorem Ppu.status_rendering (p : Ppu) : p.status.rendering = p.rendering := by simp [Ppu.rendering]
@[simp] theorem Ppu.status_renderingLine (p : Ppu) : p.status.renderingLine = p.renderingLine := by
  simp [Ppu.renderingLine]
@[simp] theorem Ppu.status_visibleLine (p : Ppu) : p.status.visibleLine = p.visibleLine := by simp [Ppu.visibleLine]

/-- Away from (241, 1) and (261, 1) there is no status work. -/
theorem Ppu.status_eq {p : Ppu} (h : ¬ (p.dot = 1 ∧ (p.scanline = 241 ∨ p.scanline = 261))) : p.status = p := by
  unfold Ppu.status Ppu.atVblankStart
  rw [if_neg (by simp; omega), if_neg (by omega)]

/-- On a visible line there is no status work. -/
theorem Ppu.status_of_visible {p : Ppu} (h : p.scanline < 240) : p.status = p := Ppu.status_eq (by omega)

/-- The background's stage of a dot. -/
theorem Ppu.step_background (m : Mapper) (p : Ppu) :
    ∃ b, Ppu.OnlyBackground p.status b ∧
      (b = if p.rendering = true ∧ p.renderingLine = true then p.status.background m else p.status) ∧
      ∃ k, Ppu.OnlySprites b k ∧ (k = if p.rendering = true ∧ p.visibleLine = true then b.sprites m else b) ∧
        p.step m =
          (if p.rendering = true ∧ p.visibleLine = true ∧ 1 ≤ p.dot ∧ p.dot ≤ 256 then k.output (p.dot - 1)
            else k).advance := by
  unfold Ppu.step Ppu.doDot Ppu.render
  extract_lets p0 b k
  cases hr : p.rendering with
  | false =>
    refine ⟨p0, Ppu.OnlyBackground.refl _, by simp; rfl, p0, Ppu.OnlySprites.refl _, by simp, ?_⟩
    simp [p0, hr]
  | true =>
    have hb : Ppu.OnlyBackground p0 b := by
      unfold b
      split
      · exact Ppu.background_only ..
      · exact Ppu.OnlyBackground.refl _
    have hk : Ppu.OnlySprites b k := by
      unfold k
      split
      · exact Ppu.sprites_only ..
      · exact Ppu.OnlySprites.refl _
    have hv : b.visibleLine = p.visibleLine := by unfold Ppu.visibleLine; rw [hb.scanline, Ppu.status_scanline]
    have hkv : k.visibleLine = p.visibleLine := by unfold Ppu.visibleLine; rw [hk.scanline, hb.scanline, Ppu.status_scanline]
    have hd : k.dot = p.dot := by rw [hk.dot, hb.dot, Ppu.status_dot]
    refine ⟨b, hb, by unfold b; simp [p0], k, hk, by unfold k; simp [hv], ?_⟩
    simp only [p0, Ppu.status_rendering, hr, hkv, hd, if_true, Bool.and_eq_true, decide_eq_true_eq, true_and]

/-- The position of the next dot is all that the advance changes. -/
theorem Ppu.advance_eq (p : Ppu) : ∃ l d, p.advance = { p with scanline := l, dot := d } := by
  unfold Ppu.advance
  split
  · exact ⟨_, _, rfl⟩
  · exact ⟨p.scanline, _, rfl⟩

/-! ### The background pipeline (R564, R565, R570, R571) -/

/-- The shifters after the shift and the reload of a dot. -/
def shifterAfter (d : Nat) (r : BitVec 16) (latch : Byte) : BitVec 16 :=
  let r := if shiftDot d then r <<< 1 else r
  if reloadDot d then withLowByte r latch else r

/-- What the background's stage leaves in its shifters and latches. -/
theorem Ppu.background_pipeline (m : Mapper) (p : Ppu) :
    ∃ v, p.background m =
      let f := if fetchDot p.dot then p.fetch m (p.dot % 8) else p
      { p with
        v := v
        ntLatch := f.ntLatch
        atLatch := f.atLatch
        ptLoLatch := f.ptLoLatch
        ptHiLatch := f.ptHiLatch
        bgLo := shifterAfter p.dot p.bgLo p.ptLoLatch
        bgHi := shifterAfter p.dot p.bgHi p.ptHiLatch
        atLo := shifterAfter p.dot p.atLo (if p.atLatch.getLsbD 0 then 0xFF#8 else 0x00#8)
        atHi := shifterAfter p.dot p.atHi (if p.atLatch.getLsbD 1 then 0xFF#8 else 0x00#8) } := by
  unfold Ppu.background
  extract_lets p1 p2 p3 p4 p5 p6 f
  have h2 : p2 = { p with
      bgLo := shifterAfter p.dot p.bgLo p.ptLoLatch
      bgHi := shifterAfter p.dot p.bgHi p.ptHiLatch
      atLo := shifterAfter p.dot p.atLo (if p.atLatch.getLsbD 0 then 0xFF#8 else 0x00#8)
      atHi := shifterAfter p.dot p.atHi (if p.atLatch.getLsbD 1 then 0xFF#8 else 0x00#8) } := by
    unfold p2 p1 shifterAfter Ppu.reload Ppu.shift
    cases shiftDot p.dot <;> simp only [Bool.false_eq_true, if_false, if_true] <;> cases reloadDot p.dot <;> rfl
  clear_value p2
  have h4 : ∃ v, p4 = { p3 with v := v } := by unfold p4; split; exact ⟨_, rfl⟩; exact ⟨p3.v, rfl⟩
  have h5 : ∃ v, p5 = { p3 with v := v } := by
    obtain ⟨_, h⟩ := h4
    unfold p5
    rw [h]
    split <;> exact ⟨_, rfl⟩
  have h6 : ∃ v, p6 = { p3 with v := v } := by
    obtain ⟨_, h⟩ := h5
    unfold p6
    rw [h]
    split <;> exact ⟨_, rfl⟩
  have h7 : ∃ v, (if p6.scanline = 261 ∧ 280 ≤ p6.dot ∧ p6.dot ≤ 304 then { p6 with v := copyVertical p6.v p6.t }
      else p6) =
      { p3 with v := v } := by
    obtain ⟨_, h⟩ := h6
    rw [h]
    split <;> exact ⟨_, rfl⟩
  have h3 : p3 = if fetchDot p.dot then p2.fetch m (p.dot % 8) else p2 := by unfold p3; rw [h2]
  obtain ⟨w, h⟩ := h7
  refine ⟨w, h.trans ?_⟩
  rw [h3, h2]
  by_cases hf : fetchDot p.dot = true
  · simp only [f, hf, if_true]
    generalize p.dot % 8 = r
    rcases r with _ | _ | _ | _ | _ | _ | _ | _ | r <;> rfl
  · simp only [f, hf, Bool.false_eq_true, if_false]

/-! ### The sprite stages (R581 to R584) -/

/-- The bytes of secondary OAM after a sprite is copied. -/
theorem Ppu.copySprite_secAt (p : Ppu) (n c : Nat) :
    (p.copySprite n).secAt c =
      if 4 * p.secCount ≤ c ∧ c < 4 * p.secCount + 4 then p.oamAt (4 * n + (c - 4 * p.secCount)) else p.secAt c := by
  unfold Ppu.copySprite Ppu.secAt
  simp only [Memory.read_write_none]
  by_cases h3 : c = 4 * p.secCount + 3
  · rw [if_pos h3, if_pos (by omega)]; subst h3; congr 1; omega
  · rw [if_neg h3]
    by_cases h2 : c = 4 * p.secCount + 2
    · rw [if_pos h2, if_pos (by omega)]; subst h2; congr 1; omega
    · rw [if_neg h2]
      by_cases h1 : c = 4 * p.secCount + 1
      · rw [if_pos h1, if_pos (by omega)]; subst h1; congr 1; omega
      · rw [if_neg h1]
        by_cases h0 : c = 4 * p.secCount + 0
        · rw [if_pos h0, if_pos (by omega)]; subst h0; congr 1; omega
        · rw [if_neg h0, if_neg (by omega)]

/-- The sprites of a list with a row on the current line. -/
def Ppu.hits (p : Ppu) (l : List Nat) : List Nat :=
  l.filter (fun n => spriteInRange p.spriteHeight p.scanline (p.oamAt (4 * n)))

/-- What an evaluation of the sprites of a list does, from at most eight in secondary OAM. -/
theorem Ppu.evaluateFrom_eq (l : List Nat) (p : Ppu) (h : p.secCount ≤ 8) :
    (p.evaluateFrom l).secCount = min 8 (p.secCount + (p.hits l).length) ∧
      (p.evaluateFrom l).sprOverflow = (p.sprOverflow || decide (8 < p.secCount + (p.hits l).length)) ∧
      (p.evaluateFrom l).secHasZero = (p.secHasZero || ((p.hits l).take (8 - p.secCount)).contains 0) ∧
      (∀ c, c < 4 * p.secCount → (p.evaluateFrom l).secAt c = p.secAt c) ∧
      (∀ j k n, p.secCount + j < 8 → k < 4 → (p.hits l)[j]? = some n →
        (p.evaluateFrom l).secAt (4 * (p.secCount + j) + k) = p.oamAt (4 * n + k)) := by
  induction l generalizing p with
  | nil => simp [Ppu.hits, Ppu.evaluateFrom]; omega
  | cons n l ih =>
    unfold Ppu.evaluateFrom
    by_cases hr : spriteInRange p.spriteHeight p.scanline (p.oamAt (4 * n)) = true
    · rw [if_pos hr]
      have hh : p.hits (n :: l) = n :: p.hits l := by unfold Ppu.hits; rw [List.filter_cons, if_pos hr]
      by_cases hc : p.secCount < 8
      · rw [if_pos hc]
        obtain ⟨i1, i2, i3, i4, i5⟩ := ih (p.copySprite n) (by show p.secCount + 1 ≤ 8; omega)
        rw [show (p.copySprite n).hits l = p.hits l from rfl] at i1 i2 i3 i5
        rw [show (p.copySprite n).secCount = p.secCount + 1 from rfl] at i1 i2 i3 i4 i5
        rw [hh, List.length_cons]
        refine ⟨by rw [i1]; congr 1; omega, ?_, ?_, ?_, ?_⟩
        · rw [i2, show (p.copySprite n).sprOverflow = p.sprOverflow from rfl]
          congr 2
          apply propext
          omega
        · rw [i3, show (p.copySprite n).secHasZero = (p.secHasZero || decide (n = 0)) from rfl,
            show 8 - p.secCount = (8 - (p.secCount + 1)) + 1 by omega, List.take_succ_cons, List.contains_cons,
            Bool.or_assoc]
          congr 2
          cases n <;> simp
        · intro c hcc
          rw [i4 c (by omega), Ppu.copySprite_secAt, if_neg (by omega)]
        · intro j k i hj hk hi
          cases j with
          | zero =>
            simp only [List.getElem?_cons_zero, Option.some.injEq] at hi
            subst hi
            rw [i4 _ (by omega), Ppu.copySprite_secAt, if_pos (by omega)]
            congr 1
            omega
          | succ j =>
            rw [show p.secCount + (j + 1) = p.secCount + 1 + j by omega]
            exact i5 j k i (by omega) hk (by simpa using hi)
      · rw [if_neg hc, hh, List.length_cons]
        refine ⟨?_, by simp; omega, ?_, fun _ _ => rfl, fun j k i hj => by omega⟩
        · show p.secCount = _
          omega
        · rw [show 8 - p.secCount = 0 by omega]
          simp
    · rw [if_neg hr]
      have hh : p.hits (n :: l) = p.hits l := by unfold Ppu.hits; rw [List.filter_cons, if_neg hr]
      rw [hh]
      exact ih p h

/-- The slots after the sprite fetch: those below the count loaded, the others kept. -/
theorem Ppu.loadSlots_get (m : Mapper) (p : Ppu) (l : List SpriteSlot) (i j : Nat) :
    (p.loadSlots m i l)[j]? = l[j]?.map (fun k => if i + j < p.secCount then p.loadSlot m (i + j) else k) := by
  induction l generalizing i j with
  | nil => simp [Ppu.loadSlots]
  | cons s l ih =>
    unfold Ppu.loadSlots
    cases j with
    | zero => simp
    | succ j => simp only [List.getElem?_cons_succ, ih, show i + 1 + j = i + (j + 1) by omega]

/-- Secondary OAM and its marks change only at dots 64 and 256, the slots and theirs only at dot 320. -/
theorem Ppu.sprites_idle {m : Mapper} {p : Ppu} (h1 : p.dot ≠ 64) (h2 : p.dot ≠ 256) (h3 : p.dot ≠ 320) :
    p.sprites m = p := by
  simp [Ppu.sprites, h1, h2, h3]

/-! ### Pixels -/

/-- Writing a pixel changes the colour of that pixel alone. -/
theorem FrameBuffer.colour_put (fb : FrameBuffer) (y x y' x' : Nat) (c : ColourIndex) :
    (fb.put y x c).colour y' x' = if y' = y ∧ x' = x then Config.masterPalette c else fb.colour y' x' := by
  have hw : ∀ {α : Type} [DecidableEq α] (m : Memory α) (k j : Nat) (v : α),
      Memory.find (Memory.write none m k v) j = if j = k then some v else Memory.find m j := by
    intro α _ m k j v
    unfold Memory.write
    rw [if_neg (by simp)]
    exact Memory.find_insert m k j v
  unfold FrameBuffer.colour FrameBuffer.put
  simp only [hw]
  by_cases h : y' = y
  · subst h
    simp only [if_true, Option.getD_some, hw, true_and]
    by_cases hx : x' = x
    · simp [hx]
    · simp [hx]
  · simp [h]

end Sys2Proof.Machine
end

