-- ==== Sys2Proof/Laws/PerInstr.lean ====
section
/-!
SUPPORT. Laws/PerInstr.lean: the family WellFormed: every term of Instr is well formed, one lemma per constructor.
-/

namespace Sys2Proof.Laws

/-- The term's bytes are one whole instruction (R140). -/
def WellFormed.Statement (i : Instr) : Prop := i.WellFormed = true

theorem WellFormed.brk : WellFormed.Statement .brk := rfl
theorem WellFormed.oraIzx (b : Byte) : WellFormed.Statement (.oraIzx b) := rfl
theorem WellFormed.undef02 : WellFormed.Statement .undef02 := rfl
theorem WellFormed.sloIzx (b : Byte) : WellFormed.Statement (.sloIzx b) := rfl
theorem WellFormed.nop04 (b : Byte) : WellFormed.Statement (.nop04 b) := rfl
theorem WellFormed.oraZp (b : Byte) : WellFormed.Statement (.oraZp b) := rfl
theorem WellFormed.aslZp (b : Byte) : WellFormed.Statement (.aslZp b) := rfl
theorem WellFormed.sloZp (b : Byte) : WellFormed.Statement (.sloZp b) := rfl
theorem WellFormed.php : WellFormed.Statement .php := rfl
theorem WellFormed.oraImm (v : Byte) : WellFormed.Statement (.oraImm v) := rfl
theorem WellFormed.aslAcc : WellFormed.Statement .aslAcc := rfl
theorem WellFormed.undef0B : WellFormed.Statement .undef0B := rfl
theorem WellFormed.nop0C (a : Addr) : WellFormed.Statement (.nop0C a) := rfl
theorem WellFormed.oraAbs (a : Addr) : WellFormed.Statement (.oraAbs a) := rfl
theorem WellFormed.aslAbs (a : Addr) : WellFormed.Statement (.aslAbs a) := rfl
theorem WellFormed.sloAbs (a : Addr) : WellFormed.Statement (.sloAbs a) := rfl
theorem WellFormed.bpl (d : Byte) : WellFormed.Statement (.bpl d) := rfl
theorem WellFormed.oraIzy (b : Byte) : WellFormed.Statement (.oraIzy b) := rfl
theorem WellFormed.undef12 : WellFormed.Statement .undef12 := rfl
theorem WellFormed.sloIzy (b : Byte) : WellFormed.Statement (.sloIzy b) := rfl
theorem WellFormed.nop14 (b : Byte) : WellFormed.Statement (.nop14 b) := rfl
theorem WellFormed.oraZpx (b : Byte) : WellFormed.Statement (.oraZpx b) := rfl
theorem WellFormed.aslZpx (b : Byte) : WellFormed.Statement (.aslZpx b) := rfl
theorem WellFormed.sloZpx (b : Byte) : WellFormed.Statement (.sloZpx b) := rfl
theorem WellFormed.clc : WellFormed.Statement .clc := rfl
theorem WellFormed.oraAby (a : Addr) : WellFormed.Statement (.oraAby a) := rfl
theorem WellFormed.nop1A : WellFormed.Statement .nop1A := rfl
theorem WellFormed.sloAby (a : Addr) : WellFormed.Statement (.sloAby a) := rfl
theorem WellFormed.nop1C (a : Addr) : WellFormed.Statement (.nop1C a) := rfl
theorem WellFormed.oraAbx (a : Addr) : WellFormed.Statement (.oraAbx a) := rfl
theorem WellFormed.aslAbx (a : Addr) : WellFormed.Statement (.aslAbx a) := rfl
theorem WellFormed.sloAbx (a : Addr) : WellFormed.Statement (.sloAbx a) := rfl
theorem WellFormed.jsr (lo : Byte) : WellFormed.Statement (.jsr lo) := rfl
theorem WellFormed.andIzx (b : Byte) : WellFormed.Statement (.andIzx b) := rfl
theorem WellFormed.undef22 : WellFormed.Statement .undef22 := rfl
theorem WellFormed.rlaIzx (b : Byte) : WellFormed.Statement (.rlaIzx b) := rfl
theorem WellFormed.bitZp (b : Byte) : WellFormed.Statement (.bitZp b) := rfl
theorem WellFormed.andZp (b : Byte) : WellFormed.Statement (.andZp b) := rfl
theorem WellFormed.rolZp (b : Byte) : WellFormed.Statement (.rolZp b) := rfl
theorem WellFormed.rlaZp (b : Byte) : WellFormed.Statement (.rlaZp b) := rfl
theorem WellFormed.plp : WellFormed.Statement .plp := rfl
theorem WellFormed.andImm (v : Byte) : WellFormed.Statement (.andImm v) := rfl
theorem WellFormed.rolAcc : WellFormed.Statement .rolAcc := rfl
theorem WellFormed.undef2B : WellFormed.Statement .undef2B := rfl
theorem WellFormed.bitAbs (a : Addr) : WellFormed.Statement (.bitAbs a) := rfl
theorem WellFormed.andAbs (a : Addr) : WellFormed.Statement (.andAbs a) := rfl
theorem WellFormed.rolAbs (a : Addr) : WellFormed.Statement (.rolAbs a) := rfl
theorem WellFormed.rlaAbs (a : Addr) : WellFormed.Statement (.rlaAbs a) := rfl
theorem WellFormed.bmi (d : Byte) : WellFormed.Statement (.bmi d) := rfl
theorem WellFormed.andIzy (b : Byte) : WellFormed.Statement (.andIzy b) := rfl
theorem WellFormed.undef32 : WellFormed.Statement .undef32 := rfl
theorem WellFormed.rlaIzy (b : Byte) : WellFormed.Statement (.rlaIzy b) := rfl
theorem WellFormed.nop34 (b : Byte) : WellFormed.Statement (.nop34 b) := rfl
theorem WellFormed.andZpx (b : Byte) : WellFormed.Statement (.andZpx b) := rfl
theorem WellFormed.rolZpx (b : Byte) : WellFormed.Statement (.rolZpx b) := rfl
theorem WellFormed.rlaZpx (b : Byte) : WellFormed.Statement (.rlaZpx b) := rfl
theorem WellFormed.sec : WellFormed.Statement .sec := rfl
theorem WellFormed.andAby (a : Addr) : WellFormed.Statement (.andAby a) := rfl
theorem WellFormed.nop3A : WellFormed.Statement .nop3A := rfl
theorem WellFormed.rlaAby (a : Addr) : WellFormed.Statement (.rlaAby a) := rfl
theorem WellFormed.nop3C (a : Addr) : WellFormed.Statement (.nop3C a) := rfl
theorem WellFormed.andAbx (a : Addr) : WellFormed.Statement (.andAbx a) := rfl
theorem WellFormed.rolAbx (a : Addr) : WellFormed.Statement (.rolAbx a) := rfl
theorem WellFormed.rlaAbx (a : Addr) : WellFormed.Statement (.rlaAbx a) := rfl
theorem WellFormed.rti : WellFormed.Statement .rti := rfl
theorem WellFormed.eorIzx (b : Byte) : WellFormed.Statement (.eorIzx b) := rfl
theorem WellFormed.undef42 : WellFormed.Statement .undef42 := rfl
theorem WellFormed.sreIzx (b : Byte) : WellFormed.Statement (.sreIzx b) := rfl
theorem WellFormed.nop44 (b : Byte) : WellFormed.Statement (.nop44 b) := rfl
theorem WellFormed.eorZp (b : Byte) : WellFormed.Statement (.eorZp b) := rfl
theorem WellFormed.lsrZp (b : Byte) : WellFormed.Statement (.lsrZp b) := rfl
theorem WellFormed.sreZp (b : Byte) : WellFormed.Statement (.sreZp b) := rfl
theorem WellFormed.pha : WellFormed.Statement .pha := rfl
theorem WellFormed.eorImm (v : Byte) : WellFormed.Statement (.eorImm v) := rfl
theorem WellFormed.lsrAcc : WellFormed.Statement .lsrAcc := rfl
theorem WellFormed.undef4B : WellFormed.Statement .undef4B := rfl
theorem WellFormed.jmpAbs (a : Addr) : WellFormed.Statement (.jmpAbs a) := rfl
theorem WellFormed.eorAbs (a : Addr) : WellFormed.Statement (.eorAbs a) := rfl
theorem WellFormed.lsrAbs (a : Addr) : WellFormed.Statement (.lsrAbs a) := rfl
theorem WellFormed.sreAbs (a : Addr) : WellFormed.Statement (.sreAbs a) := rfl
theorem WellFormed.bvc (d : Byte) : WellFormed.Statement (.bvc d) := rfl
theorem WellFormed.eorIzy (b : Byte) : WellFormed.Statement (.eorIzy b) := rfl
theorem WellFormed.undef52 : WellFormed.Statement .undef52 := rfl
theorem WellFormed.sreIzy (b : Byte) : WellFormed.Statement (.sreIzy b) := rfl
theorem WellFormed.nop54 (b : Byte) : WellFormed.Statement (.nop54 b) := rfl
theorem WellFormed.eorZpx (b : Byte) : WellFormed.Statement (.eorZpx b) := rfl
theorem WellFormed.lsrZpx (b : Byte) : WellFormed.Statement (.lsrZpx b) := rfl
theorem WellFormed.sreZpx (b : Byte) : WellFormed.Statement (.sreZpx b) := rfl
theorem WellFormed.cli : WellFormed.Statement .cli := rfl
theorem WellFormed.eorAby (a : Addr) : WellFormed.Statement (.eorAby a) := rfl
theorem WellFormed.nop5A : WellFormed.Statement .nop5A := rfl
theorem WellFormed.sreAby (a : Addr) : WellFormed.Statement (.sreAby a) := rfl
theorem WellFormed.nop5C (a : Addr) : WellFormed.Statement (.nop5C a) := rfl
theorem WellFormed.eorAbx (a : Addr) : WellFormed.Statement (.eorAbx a) := rfl
theorem WellFormed.lsrAbx (a : Addr) : WellFormed.Statement (.lsrAbx a) := rfl
theorem WellFormed.sreAbx (a : Addr) : WellFormed.Statement (.sreAbx a) := rfl
theorem WellFormed.rts : WellFormed.Statement .rts := rfl
theorem WellFormed.adcIzx (b : Byte) : WellFormed.Statement (.adcIzx b) := rfl
theorem WellFormed.undef62 : WellFormed.Statement .undef62 := rfl
theorem WellFormed.rraIzx (b : Byte) : WellFormed.Statement (.rraIzx b) := rfl
theorem WellFormed.nop64 (b : Byte) : WellFormed.Statement (.nop64 b) := rfl
theorem WellFormed.adcZp (b : Byte) : WellFormed.Statement (.adcZp b) := rfl
theorem WellFormed.rorZp (b : Byte) : WellFormed.Statement (.rorZp b) := rfl
theorem WellFormed.rraZp (b : Byte) : WellFormed.Statement (.rraZp b) := rfl
theorem WellFormed.pla : WellFormed.Statement .pla := rfl
theorem WellFormed.adcImm (v : Byte) : WellFormed.Statement (.adcImm v) := rfl
theorem WellFormed.rorAcc : WellFormed.Statement .rorAcc := rfl
theorem WellFormed.undef6B : WellFormed.Statement .undef6B := rfl
theorem WellFormed.jmpInd (a : Addr) : WellFormed.Statement (.jmpInd a) := rfl
theorem WellFormed.adcAbs (a : Addr) : WellFormed.Statement (.adcAbs a) := rfl
theorem WellFormed.rorAbs (a : Addr) : WellFormed.Statement (.rorAbs a) := rfl
theorem WellFormed.rraAbs (a : Addr) : WellFormed.Statement (.rraAbs a) := rfl
theorem WellFormed.bvs (d : Byte) : WellFormed.Statement (.bvs d) := rfl
theorem WellFormed.adcIzy (b : Byte) : WellFormed.Statement (.adcIzy b) := rfl
theorem WellFormed.undef72 : WellFormed.Statement .undef72 := rfl
theorem WellFormed.rraIzy (b : Byte) : WellFormed.Statement (.rraIzy b) := rfl
theorem WellFormed.nop74 (b : Byte) : WellFormed.Statement (.nop74 b) := rfl
theorem WellFormed.adcZpx (b : Byte) : WellFormed.Statement (.adcZpx b) := rfl
theorem WellFormed.rorZpx (b : Byte) : WellFormed.Statement (.rorZpx b) := rfl
theorem WellFormed.rraZpx (b : Byte) : WellFormed.Statement (.rraZpx b) := rfl
theorem WellFormed.sei : WellFormed.Statement .sei := rfl
theorem WellFormed.adcAby (a : Addr) : WellFormed.Statement (.adcAby a) := rfl
theorem WellFormed.nop7A : WellFormed.Statement .nop7A := rfl
theorem WellFormed.rraAby (a : Addr) : WellFormed.Statement (.rraAby a) := rfl
theorem WellFormed.nop7C (a : Addr) : WellFormed.Statement (.nop7C a) := rfl
theorem WellFormed.adcAbx (a : Addr) : WellFormed.Statement (.adcAbx a) := rfl
theorem WellFormed.rorAbx (a : Addr) : WellFormed.Statement (.rorAbx a) := rfl
theorem WellFormed.rraAbx (a : Addr) : WellFormed.Statement (.rraAbx a) := rfl
theorem WellFormed.nop80 (v : Byte) : WellFormed.Statement (.nop80 v) := rfl
theorem WellFormed.staIzx (b : Byte) : WellFormed.Statement (.staIzx b) := rfl
theorem WellFormed.nop82 (v : Byte) : WellFormed.Statement (.nop82 v) := rfl
theorem WellFormed.saxIzx (b : Byte) : WellFormed.Statement (.saxIzx b) := rfl
theorem WellFormed.styZp (b : Byte) : WellFormed.Statement (.styZp b) := rfl
theorem WellFormed.staZp (b : Byte) : WellFormed.Statement (.staZp b) := rfl
theorem WellFormed.stxZp (b : Byte) : WellFormed.Statement (.stxZp b) := rfl
theorem WellFormed.saxZp (b : Byte) : WellFormed.Statement (.saxZp b) := rfl
theorem WellFormed.dey : WellFormed.Statement .dey := rfl
theorem WellFormed.nop89 (v : Byte) : WellFormed.Statement (.nop89 v) := rfl
theorem WellFormed.txa : WellFormed.Statement .txa := rfl
theorem WellFormed.undef8B : WellFormed.Statement .undef8B := rfl
theorem WellFormed.styAbs (a : Addr) : WellFormed.Statement (.styAbs a) := rfl
theorem WellFormed.staAbs (a : Addr) : WellFormed.Statement (.staAbs a) := rfl
theorem WellFormed.stxAbs (a : Addr) : WellFormed.Statement (.stxAbs a) := rfl
theorem WellFormed.saxAbs (a : Addr) : WellFormed.Statement (.saxAbs a) := rfl
theorem WellFormed.bcc (d : Byte) : WellFormed.Statement (.bcc d) := rfl
theorem WellFormed.staIzy (b : Byte) : WellFormed.Statement (.staIzy b) := rfl
theorem WellFormed.undef92 : WellFormed.Statement .undef92 := rfl
theorem WellFormed.undef93 : WellFormed.Statement .undef93 := rfl
theorem WellFormed.styZpx (b : Byte) : WellFormed.Statement (.styZpx b) := rfl
theorem WellFormed.staZpx (b : Byte) : WellFormed.Statement (.staZpx b) := rfl
theorem WellFormed.stxZpy (b : Byte) : WellFormed.Statement (.stxZpy b) := rfl
theorem WellFormed.saxZpy (b : Byte) : WellFormed.Statement (.saxZpy b) := rfl
theorem WellFormed.tya : WellFormed.Statement .tya := rfl
theorem WellFormed.staAby (a : Addr) : WellFormed.Statement (.staAby a) := rfl
theorem WellFormed.txs : WellFormed.Statement .txs := rfl
theorem WellFormed.undef9B : WellFormed.Statement .undef9B := rfl
theorem WellFormed.undef9C : WellFormed.Statement .undef9C := rfl
theorem WellFormed.staAbx (a : Addr) : WellFormed.Statement (.staAbx a) := rfl
theorem WellFormed.undef9E : WellFormed.Statement .undef9E := rfl
theorem WellFormed.undef9F : WellFormed.Statement .undef9F := rfl
theorem WellFormed.ldyImm (v : Byte) : WellFormed.Statement (.ldyImm v) := rfl
theorem WellFormed.ldaIzx (b : Byte) : WellFormed.Statement (.ldaIzx b) := rfl
theorem WellFormed.ldxImm (v : Byte) : WellFormed.Statement (.ldxImm v) := rfl
theorem WellFormed.laxIzx (b : Byte) : WellFormed.Statement (.laxIzx b) := rfl
theorem WellFormed.ldyZp (b : Byte) : WellFormed.Statement (.ldyZp b) := rfl
theorem WellFormed.ldaZp (b : Byte) : WellFormed.Statement (.ldaZp b) := rfl
theorem WellFormed.ldxZp (b : Byte) : WellFormed.Statement (.ldxZp b) := rfl
theorem WellFormed.laxZp (b : Byte) : WellFormed.Statement (.laxZp b) := rfl
theorem WellFormed.tay : WellFormed.Statement .tay := rfl
theorem WellFormed.ldaImm (v : Byte) : WellFormed.Statement (.ldaImm v) := rfl
theorem WellFormed.tax : WellFormed.Statement .tax := rfl
theorem WellFormed.undefAB : WellFormed.Statement .undefAB := rfl
theorem WellFormed.ldyAbs (a : Addr) : WellFormed.Statement (.ldyAbs a) := rfl
theorem WellFormed.ldaAbs (a : Addr) : WellFormed.Statement (.ldaAbs a) := rfl
theorem WellFormed.ldxAbs (a : Addr) : WellFormed.Statement (.ldxAbs a) := rfl
theorem WellFormed.laxAbs (a : Addr) : WellFormed.Statement (.laxAbs a) := rfl
theorem WellFormed.bcs (d : Byte) : WellFormed.Statement (.bcs d) := rfl
theorem WellFormed.ldaIzy (b : Byte) : WellFormed.Statement (.ldaIzy b) := rfl
theorem WellFormed.undefB2 : WellFormed.Statement .undefB2 := rfl
theorem WellFormed.laxIzy (b : Byte) : WellFormed.Statement (.laxIzy b) := rfl
theorem WellFormed.ldyZpx (b : Byte) : WellFormed.Statement (.ldyZpx b) := rfl
theorem WellFormed.ldaZpx (b : Byte) : WellFormed.Statement (.ldaZpx b) := rfl
theorem WellFormed.ldxZpy (b : Byte) : WellFormed.Statement (.ldxZpy b) := rfl
theorem WellFormed.laxZpy (b : Byte) : WellFormed.Statement (.laxZpy b) := rfl
theorem WellFormed.clv : WellFormed.Statement .clv := rfl
theorem WellFormed.ldaAby (a : Addr) : WellFormed.Statement (.ldaAby a) := rfl
theorem WellFormed.tsx : WellFormed.Statement .tsx := rfl
theorem WellFormed.undefBB : WellFormed.Statement .undefBB := rfl
theorem WellFormed.ldyAbx (a : Addr) : WellFormed.Statement (.ldyAbx a) := rfl
theorem WellFormed.ldaAbx (a : Addr) : WellFormed.Statement (.ldaAbx a) := rfl
theorem WellFormed.ldxAby (a : Addr) : WellFormed.Statement (.ldxAby a) := rfl
theorem WellFormed.laxAby (a : Addr) : WellFormed.Statement (.laxAby a) := rfl
theorem WellFormed.cpyImm (v : Byte) : WellFormed.Statement (.cpyImm v) := rfl
theorem WellFormed.cmpIzx (b : Byte) : WellFormed.Statement (.cmpIzx b) := rfl
theorem WellFormed.nopC2 (v : Byte) : WellFormed.Statement (.nopC2 v) := rfl
theorem WellFormed.dcpIzx (b : Byte) : WellFormed.Statement (.dcpIzx b) := rfl
theorem WellFormed.cpyZp (b : Byte) : WellFormed.Statement (.cpyZp b) := rfl
theorem WellFormed.cmpZp (b : Byte) : WellFormed.Statement (.cmpZp b) := rfl
theorem WellFormed.decZp (b : Byte) : WellFormed.Statement (.decZp b) := rfl
theorem WellFormed.dcpZp (b : Byte) : WellFormed.Statement (.dcpZp b) := rfl
theorem WellFormed.iny : WellFormed.Statement .iny := rfl
theorem WellFormed.cmpImm (v : Byte) : WellFormed.Statement (.cmpImm v) := rfl
theorem WellFormed.dex : WellFormed.Statement .dex := rfl
theorem WellFormed.undefCB : WellFormed.Statement .undefCB := rfl
theorem WellFormed.cpyAbs (a : Addr) : WellFormed.Statement (.cpyAbs a) := rfl
theorem WellFormed.cmpAbs (a : Addr) : WellFormed.Statement (.cmpAbs a) := rfl
theorem WellFormed.decAbs (a : Addr) : WellFormed.Statement (.decAbs a) := rfl
theorem WellFormed.dcpAbs (a : Addr) : WellFormed.Statement (.dcpAbs a) := rfl
theorem WellFormed.bne (d : Byte) : WellFormed.Statement (.bne d) := rfl
theorem WellFormed.cmpIzy (b : Byte) : WellFormed.Statement (.cmpIzy b) := rfl
theorem WellFormed.undefD2 : WellFormed.Statement .undefD2 := rfl
theorem WellFormed.dcpIzy (b : Byte) : WellFormed.Statement (.dcpIzy b) := rfl
theorem WellFormed.nopD4 (b : Byte) : WellFormed.Statement (.nopD4 b) := rfl
theorem WellFormed.cmpZpx (b : Byte) : WellFormed.Statement (.cmpZpx b) := rfl
theorem WellFormed.decZpx (b : Byte) : WellFormed.Statement (.decZpx b) := rfl
theorem WellFormed.dcpZpx (b : Byte) : WellFormed.Statement (.dcpZpx b) := rfl
theorem WellFormed.cld : WellFormed.Statement .cld := rfl
theorem WellFormed.cmpAby (a : Addr) : WellFormed.Statement (.cmpAby a) := rfl
theorem WellFormed.nopDA : WellFormed.Statement .nopDA := rfl
theorem WellFormed.dcpAby (a : Addr) : WellFormed.Statement (.dcpAby a) := rfl
theorem WellFormed.nopDC (a : Addr) : WellFormed.Statement (.nopDC a) := rfl
theorem WellFormed.cmpAbx (a : Addr) : WellFormed.Statement (.cmpAbx a) := rfl
theorem WellFormed.decAbx (a : Addr) : WellFormed.Statement (.decAbx a) := rfl
theorem WellFormed.dcpAbx (a : Addr) : WellFormed.Statement (.dcpAbx a) := rfl
theorem WellFormed.cpxImm (v : Byte) : WellFormed.Statement (.cpxImm v) := rfl
theorem WellFormed.sbcIzx (b : Byte) : WellFormed.Statement (.sbcIzx b) := rfl
theorem WellFormed.nopE2 (v : Byte) : WellFormed.Statement (.nopE2 v) := rfl
theorem WellFormed.isbIzx (b : Byte) : WellFormed.Statement (.isbIzx b) := rfl
theorem WellFormed.cpxZp (b : Byte) : WellFormed.Statement (.cpxZp b) := rfl
theorem WellFormed.sbcZp (b : Byte) : WellFormed.Statement (.sbcZp b) := rfl
theorem WellFormed.incZp (b : Byte) : WellFormed.Statement (.incZp b) := rfl
theorem WellFormed.isbZp (b : Byte) : WellFormed.Statement (.isbZp b) := rfl
theorem WellFormed.inx : WellFormed.Statement .inx := rfl
theorem WellFormed.sbcImm (v : Byte) : WellFormed.Statement (.sbcImm v) := rfl
theorem WellFormed.nop : WellFormed.Statement .nop := rfl
theorem WellFormed.sbcImmEB (v : Byte) : WellFormed.Statement (.sbcImmEB v) := rfl
theorem WellFormed.cpxAbs (a : Addr) : WellFormed.Statement (.cpxAbs a) := rfl
theorem WellFormed.sbcAbs (a : Addr) : WellFormed.Statement (.sbcAbs a) := rfl
theorem WellFormed.incAbs (a : Addr) : WellFormed.Statement (.incAbs a) := rfl
theorem WellFormed.isbAbs (a : Addr) : WellFormed.Statement (.isbAbs a) := rfl
theorem WellFormed.beq (d : Byte) : WellFormed.Statement (.beq d) := rfl
theorem WellFormed.sbcIzy (b : Byte) : WellFormed.Statement (.sbcIzy b) := rfl
theorem WellFormed.undefF2 : WellFormed.Statement .undefF2 := rfl
theorem WellFormed.isbIzy (b : Byte) : WellFormed.Statement (.isbIzy b) := rfl
theorem WellFormed.nopF4 (b : Byte) : WellFormed.Statement (.nopF4 b) := rfl
theorem WellFormed.sbcZpx (b : Byte) : WellFormed.Statement (.sbcZpx b) := rfl
theorem WellFormed.incZpx (b : Byte) : WellFormed.Statement (.incZpx b) := rfl
theorem WellFormed.isbZpx (b : Byte) : WellFormed.Statement (.isbZpx b) := rfl
theorem WellFormed.sed : WellFormed.Statement .sed := rfl
theorem WellFormed.sbcAby (a : Addr) : WellFormed.Statement (.sbcAby a) := rfl
theorem WellFormed.nopFA : WellFormed.Statement .nopFA := rfl
theorem WellFormed.isbAby (a : Addr) : WellFormed.Statement (.isbAby a) := rfl
theorem WellFormed.nopFC (a : Addr) : WellFormed.Statement (.nopFC a) := rfl
theorem WellFormed.sbcAbx (a : Addr) : WellFormed.Statement (.sbcAbx a) := rfl
theorem WellFormed.incAbx (a : Addr) : WellFormed.Statement (.incAbx a) := rfl
theorem WellFormed.isbAbx (a : Addr) : WellFormed.Statement (.isbAbx a) := rfl

end Sys2Proof.Laws
end

