-- ==== Sys2Proof/Laws/Step.lean ====
section
/-!
SUPPORT. Laws/Step.lean: what a step can do: the budget it opens, what it fetches, and its cases.
-/

namespace Sys2Proof.Machine

/-! ### Opening a budget -/

/-- Opening budgets changes the cycle counter alone. -/
theorem State.opened_eq (s : State) : ∃ n, s.opened = s.addCycles n := by
  unfold State.opened
  split
  · exact ⟨0, by simp [State.addCycles]⟩
  · exact ⟨_, rfl⟩

@[simp] theorem State.opened_a (s : State) : s.opened.a = s.a := by unfold State.opened; split <;> rfl
@[simp] theorem State.opened_x (s : State) : s.opened.x = s.x := by unfold State.opened; split <;> rfl
@[simp] theorem State.opened_y (s : State) : s.opened.y = s.y := by unfold State.opened; split <;> rfl
@[simp] theorem State.opened_sp (s : State) : s.opened.sp = s.sp := by unfold State.opened; split <;> rfl
@[simp] theorem State.opened_pc (s : State) : s.opened.pc = s.pc := by unfold State.opened; split <;> rfl
@[simp] theorem State.opened_p (s : State) : s.opened.p = s.p := by unfold State.opened; split <;> rfl
@[simp] theorem State.opened_ram (s : State) : s.opened.ram = s.ram := by unfold State.opened; split <;> rfl
@[simp] theorem State.opened_nmiPending (s : State) : s.opened.nmiPending = s.nmiPending := by
  unfold State.opened; split <;> rfl
@[simp] theorem State.opened_irqLine (s : State) : s.opened.irqLine = s.irqLine := by
  unfold State.opened; split <;> rfl
@[simp] theorem State.opened_ppu (s : State) : s.opened.ppu = s.ppu := by unfold State.opened; split <;> rfl
@[simp] theorem State.opened_mapper (s : State) : s.opened.mapper = s.mapper := by unfold State.opened; split <;> rfl
@[simp] theorem State.opened_cartLoaded (s : State) : s.opened.cartLoaded = s.cartLoaded := by
  unfold State.opened; split <;> rfl
@[simp] theorem State.opened_params (s : State) : s.opened.params = s.params := by unfold State.opened; split <;> rfl
@[simp] theorem State.opened_draws (s : State) : s.opened.draws = s.draws := by unfold State.opened; split <;> rfl
@[simp] theorem State.opened_events (s : State) : s.opened.events = s.events := by unfold State.opened; split <;> rfl
@[simp] theorem State.opened_irqDue (s : State) : s.opened.irqDue = s.irqDue := by unfold State.opened; split <;> rfl

/-- An iteration runs with a positive counter, whatever the counter was (R462). -/
theorem State.opened_remainingCycles_pos (s : State) : 0 < s.opened.remainingCycles := by
  unfold State.opened
  split
  · assumption
  · simp only [State.addCycles, totalCycles]
    omega

theorem State.Ok.opened {s : State} (h : s.Ok) : s.opened.Ok :=
  h.congr (by simp) (by simp) (by simp) (by simp)

/-! ### Fetching -/

theorem fetchByte_eq (s : State) :
    fetchByte s = ((memRead s.pc s).1, (memRead s.pc s).2.setPc (s.pc + 1#16)) := by
  simp [fetchByte]

theorem State.Ok.fetchByte {s : State} (h : s.Ok) : (fetchByte s).2.Ok := (h.memRead _).setPc _

/-- A byte of memory is fetched with one tick and no other effect. -/
theorem fetchByte_of_peek {s : State} {b : Byte} (h : s.peek s.pc = some b) :
    fetchByte s = (b, (tick s).setPc (s.pc + 1#16)) := by
  rw [fetchByte_eq]
  unfold State.peek at h
  cases ht : targetOf s.pc <;> rw [ht] at h <;> simp only [reduceCtorEq, Option.some.injEq] at h
  · rw [memRead_at_ram ht, h]
  · rw [memRead_at_prgRam ht, h]
  · rw [memRead_at_prgRom ht, h]

/-- An instruction's fetch is the fetch of its opcode and of as many operand bytes as its row has. -/
theorem State.Ok.fetchInstr {s : State} (h : s.Ok) : (fetchInstr s).2.Ok := by
  unfold Machine.fetchInstr
  dsimp only
  split
  · exact h.fetchByte
  · exact h.fetchByte.fetchByte
  · exact h.fetchByte.fetchByte.fetchByte

theorem runInstr_of_handler {s : State} (h : s.params.removes (fetchByte s).1 = false) :
    runInstr s = exec (fetchInstr s).1 (fetchInstr s).2 := by
  simp [runInstr, h]

theorem runInstr_of_removed {s : State} (h : s.params.removes (fetchByte s).1 = true) :
    runInstr s = undefinedOpcode (fetchByte s).1 (fetchByte s).2 := by
  simp [runInstr, h]

/-! ### The cases of a step -/

theorem step_of_loaded {s : State} (h : s.cartLoaded = true) : step s = boundary s.opened := by simp [step, h]

/-- With no interrupt due, a step fetches and runs an instruction. -/
theorem step_of_quiet {s : State} (h : s.cartLoaded = true) (hn : s.nmiPending = false) (hi : s.irqDue = false) :
    step s = runInstr s.opened := by
  simp [step_of_loaded h, boundary, hn, hi]

/-- What a step that answers a next state has done: entered an NMI or an IRQ, run an opcode with no handler in
UNOFFICIAL_SET, or run an instruction. -/
theorem step_next_cases {s t : State} (h : step s = .next t) :
    s.cartLoaded = true ∧
      (s.nmiPending = true ∧ t = interrupt .nmi (s.opened.setNmi false) ∨
        s.nmiPending = false ∧ s.irqDue = true ∧ t = interrupt .irq s.opened ∨
        undefinedOpcode (fetchByte s.opened).1 (fetchByte s.opened).2 = .next t ∨
        exec (fetchInstr s.opened).1 (fetchInstr s.opened).2 = .next t) := by
  cases hl : s.cartLoaded with
  | false => simp [step, hl] at h
  | true =>
    refine ⟨rfl, ?_⟩
    rw [step_of_loaded hl, boundary, State.opened_nmiPending, State.opened_irqDue] at h
    cases hn : s.nmiPending with
    | true =>
      rw [hn, if_pos rfl] at h
      cases h
      exact .inl ⟨rfl, rfl⟩
    | false =>
      cases hi : s.irqDue with
      | true =>
        simp only [hn, hi, Bool.false_eq_true, if_false, if_true] at h
        cases h
        exact .inr (.inl ⟨rfl, rfl, rfl⟩)
      | false =>
        simp only [hn, hi, Bool.false_eq_true, if_false] at h
        cases hr : s.opened.params.removes (fetchByte s.opened).1 with
        | true => exact .inr (.inr (.inl (by rw [← runInstr_of_removed hr, h])))
        | false => exact .inr (.inr (.inr (by rw [← runInstr_of_handler hr, h])))

end Sys2Proof.Machine
end

