-- ==== Sys2Proof/Tests/Slice0.lean ====
section
/-!
SUPPORT. Tests/Slice0.lean: the model's own tests. Expected results come from the spec: the opcode map (R135), the test
vectors of spec/95_test_vectors.md (W1 to W7, V1 to V14) and the worked examples of the numbered rules. At the end
stand the witnesses: for each obligation with hypotheses, concrete values that meet them.
-/

namespace Sys2Proof.Tests

open Sys2Proof.Machine Sys2Proof.Claims

/-! ### A small machine to test on -/

/-- The start state of spec/95_test_vectors.md: work RAM at RAM_POISON, the registers given, a budget of 100 ticks. -/
def start (a x y sp p : Byte) (pc : Addr := 0x0200#16) : State :=
  { State.reset with a := a, x := x, y := y, sp := sp, p := unpack p, pc := pc, remainingCycles := 100 }

/-- Bytes placed in memory. -/
def seed (s : State) (l : List (Addr × Byte)) : State := l.foldl (fun s e => placeByte s e.1 e.2) s

/-- Bytes placed from an address on. -/
def code (s : State) (a : Addr) : List Byte → State
  | [] => s
  | b :: bs => code (placeByte s a b) (a + 1#16) bs

/-- What a vector names: A, X, Y, S, the P image, the pc, and the ticks taken from the budget of 100. -/
structure Seen where
  a : Byte
  x : Byte
  y : Byte
  sp : Byte
  p : Byte
  pc : Addr
  ticks : Int
  deriving DecidableEq, Repr

/-- What is seen of a state. -/
def see (s : State) : Seen := ⟨s.a, s.x, s.y, s.sp, s.p.pack true, s.pc, 100 - s.remainingCycles⟩

/-- One step of a start state with instruction bytes at its pc and seeded bytes: what is seen after it, and the byte
at an address. -/
def run (s : State) (bytes : List Byte) (seeds : List (Addr × Byte)) (at' : Addr) : Option (Seen × Option Byte) :=
  match step (code (seed s seeds) s.pc bytes) with
  | .next t => some (see t, t.peek at')
  | .fault _ => none
  | .refused _ => none

/-! ### Byte strings that are no instruction -/

/-- No byte. -/
theorem test_empty_is_ill_formed : checkBytes [] = some .empty := by decide

/-- LDA # with no operand byte (R140). -/
theorem test_short_is_ill_formed : checkBytes [0xA9#8] = some .tooShort := by decide

/-- NOP with a byte too many (R140). -/
theorem test_long_is_ill_formed : checkBytes [0xEA#8, 0x00#8] = some .tooLong := by decide

/-- LDA #$80 is whole, and JMP of three bytes. -/
theorem test_whole_is_well_formed : checkBytes [0xA9#8, 0x80#8] = none ∧ checkBytes [0x4C#8, 0x34#8, 0x12#8] = none := by
  decide

/-- The decoder refuses what is not all there, by name. -/
theorem test_decode_refuses_missing_bytes :
    decode [] = .error .noOpcode ∧ decode [0xA9#8] = .error (.missingOperand 0xA9#8) ∧
      decode [0x4C#8, 0x34#8] = .error (.missingOperand 0x4C#8) := by decide

/-! ### Decoding -/

/-- The map has an entry for every byte (R131). -/
theorem test_opcode_map_is_complete :
    opcodeMap.length = 16 ∧ opcodeMap.all (fun r => r.length == 16) = true ∧ modeMap.length = 16 ∧
      modeMap.all (fun r => r.length == 16) = true := by decide

/-- Row 0x of the opcode map (R135), each opcode before the bytes 0x34 and 0x12. -/
theorem test_decode_row_0 :
    decode [0x00#8, 0x34#8, 0x12#8] = .ok (.brk, [0x34#8, 0x12#8]) ∧
    decode [0x01#8, 0x34#8, 0x12#8] = .ok (.oraIzx 0x34#8, [0x12#8]) ∧
    decode [0x02#8, 0x34#8, 0x12#8] = .ok (.undef02, [0x34#8, 0x12#8]) ∧
    decode [0x03#8, 0x34#8, 0x12#8] = .ok (.sloIzx 0x34#8, [0x12#8]) ∧
    decode [0x04#8, 0x34#8, 0x12#8] = .ok (.nop04 0x34#8, [0x12#8]) ∧
    decode [0x05#8, 0x34#8, 0x12#8] = .ok (.oraZp 0x34#8, [0x12#8]) ∧
    decode [0x06#8, 0x34#8, 0x12#8] = .ok (.aslZp 0x34#8, [0x12#8]) ∧
    decode [0x07#8, 0x34#8, 0x12#8] = .ok (.sloZp 0x34#8, [0x12#8]) ∧
    decode [0x08#8, 0x34#8, 0x12#8] = .ok (.php, [0x34#8, 0x12#8]) ∧
    decode [0x09#8, 0x34#8, 0x12#8] = .ok (.oraImm 0x34#8, [0x12#8]) ∧
    decode [0x0A#8, 0x34#8, 0x12#8] = .ok (.aslAcc, [0x34#8, 0x12#8]) ∧
    decode [0x0B#8, 0x34#8, 0x12#8] = .ok (.undef0B, [0x34#8, 0x12#8]) ∧
    decode [0x0C#8, 0x34#8, 0x12#8] = .ok (.nop0C 0x1234#16, []) ∧
    decode [0x0D#8, 0x34#8, 0x12#8] = .ok (.oraAbs 0x1234#16, []) ∧
    decode [0x0E#8, 0x34#8, 0x12#8] = .ok (.aslAbs 0x1234#16, []) ∧
    decode [0x0F#8, 0x34#8, 0x12#8] = .ok (.sloAbs 0x1234#16, []) := by
  exact ⟨rfl, rfl, rfl, rfl, rfl, rfl, rfl, rfl, rfl, rfl, rfl, rfl, rfl, rfl, rfl, rfl⟩

/-- Row 1x of the opcode map (R135), each opcode before the bytes 0x34 and 0x12. -/
theorem test_decode_row_1 :
    decode [0x10#8, 0x34#8, 0x12#8] = .ok (.bpl 0x34#8, [0x12#8]) ∧
    decode [0x11#8, 0x34#8, 0x12#8] = .ok (.oraIzy 0x34#8, [0x12#8]) ∧
    decode [0x12#8, 0x34#8, 0x12#8] = .ok (.undef12, [0x34#8, 0x12#8]) ∧
    decode [0x13#8, 0x34#8, 0x12#8] = .ok (.sloIzy 0x34#8, [0x12#8]) ∧
    decode [0x14#8, 0x34#8, 0x12#8] = .ok (.nop14 0x34#8, [0x12#8]) ∧
    decode [0x15#8, 0x34#8, 0x12#8] = .ok (.oraZpx 0x34#8, [0x12#8]) ∧
    decode [0x16#8, 0x34#8, 0x12#8] = .ok (.aslZpx 0x34#8, [0x12#8]) ∧
    decode [0x17#8, 0x34#8, 0x12#8] = .ok (.sloZpx 0x34#8, [0x12#8]) ∧
    decode [0x18#8, 0x34#8, 0x12#8] = .ok (.clc, [0x34#8, 0x12#8]) ∧
    decode [0x19#8, 0x34#8, 0x12#8] = .ok (.oraAby 0x1234#16, []) ∧
    decode [0x1A#8, 0x34#8, 0x12#8] = .ok (.nop1A, [0x34#8, 0x12#8]) ∧
    decode [0x1B#8, 0x34#8, 0x12#8] = .ok (.sloAby 0x1234#16, []) ∧
    decode [0x1C#8, 0x34#8, 0x12#8] = .ok (.nop1C 0x1234#16, []) ∧
    decode [0x1D#8, 0x34#8, 0x12#8] = .ok (.oraAbx 0x1234#16, []) ∧
    decode [0x1E#8, 0x34#8, 0x12#8] = .ok (.aslAbx 0x1234#16, []) ∧
    decode [0x1F#8, 0x34#8, 0x12#8] = .ok (.sloAbx 0x1234#16, []) := by
  exact ⟨rfl, rfl, rfl, rfl, rfl, rfl, rfl, rfl, rfl, rfl, rfl, rfl, rfl, rfl, rfl, rfl⟩

/-- Row 2x of the opcode map (R135), each opcode before the bytes 0x34 and 0x12. -/
theorem test_decode_row_2 :
    decode [0x20#8, 0x34#8, 0x12#8] = .ok (.jsr 0x34#8, [0x12#8]) ∧
    decode [0x21#8, 0x34#8, 0x12#8] = .ok (.andIzx 0x34#8, [0x12#8]) ∧
    decode [0x22#8, 0x34#8, 0x12#8] = .ok (.undef22, [0x34#8, 0x12#8]) ∧
    decode [0x23#8, 0x34#8, 0x12#8] = .ok (.rlaIzx 0x34#8, [0x12#8]) ∧
    decode [0x24#8, 0x34#8, 0x12#8] = .ok (.bitZp 0x34#8, [0x12#8]) ∧
    decode [0x25#8, 0x34#8, 0x12#8] = .ok (.andZp 0x34#8, [0x12#8]) ∧
    decode [0x26#8, 0x34#8, 0x12#8] = .ok (.rolZp 0x34#8, [0x12#8]) ∧
    decode [0x27#8, 0x34#8, 0x12#8] = .ok (.rlaZp 0x34#8, [0x12#8]) ∧
    decode [0x28#8, 0x34#8, 0x12#8] = .ok (.plp, [0x34#8, 0x12#8]) ∧
    decode [0x29#8, 0x34#8, 0x12#8] = .ok (.andImm 0x34#8, [0x12#8]) ∧
    decode [0x2A#8, 0x34#8, 0x12#8] = .ok (.rolAcc, [0x34#8, 0x12#8]) ∧
    decode [0x2B#8, 0x34#8, 0x12#8] = .ok (.undef2B, [0x34#8, 0x12#8]) ∧
    decode [0x2C#8, 0x34#8, 0x12#8] = .ok (.bitAbs 0x1234#16, []) ∧
    decode [0x2D#8, 0x34#8, 0x12#8] = .ok (.andAbs 0x1234#16, []) ∧
    decode [0x2E#8, 0x34#8, 0x12#8] = .ok (.rolAbs 0x1234#16, []) ∧
    decode [0x2F#8, 0x34#8, 0x12#8] = .ok (.rlaAbs 0x1234#16, []) := by
  exact ⟨rfl, rfl, rfl, rfl, rfl, rfl, rfl, rfl, rfl, rfl, rfl, rfl, rfl, rfl, rfl, rfl⟩

/-- Row 3x of the opcode map (R135), each opcode before the bytes 0x34 and 0x12. -/
theorem test_decode_row_3 :
    decode [0x30#8, 0x34#8, 0x12#8] = .ok (.bmi 0x34#8, [0x12#8]) ∧
    decode [0x31#8, 0x34#8, 0x12#8] = .ok (.andIzy 0x34#8, [0x12#8]) ∧
    decode [0x32#8, 0x34#8, 0x12#8] = .ok (.undef32, [0x34#8, 0x12#8]) ∧
    decode [0x33#8, 0x34#8, 0x12#8] = .ok (.rlaIzy 0x34#8, [0x12#8]) ∧
    decode [0x34#8, 0x34#8, 0x12#8] = .ok (.nop34 0x34#8, [0x12#8]) ∧
    decode [0x35#8, 0x34#8, 0x12#8] = .ok (.andZpx 0x34#8, [0x12#8]) ∧
    decode [0x36#8, 0x34#8, 0x12#8] = .ok (.rolZpx 0x34#8, [0x12#8]) ∧
    decode [0x37#8, 0x34#8, 0x12#8] = .ok (.rlaZpx 0x34#8, [0x12#8]) ∧
    decode [0x38#8, 0x34#8, 0x12#8] = .ok (.sec, [0x34#8, 0x12#8]) ∧
    decode [0x39#8, 0x34#8, 0x12#8] = .ok (.andAby 0x1234#16, []) ∧
    decode [0x3A#8, 0x34#8, 0x12#8] = .ok (.nop3A, [0x34#8, 0x12#8]) ∧
    decode [0x3B#8, 0x34#8, 0x12#8] = .ok (.rlaAby 0x1234#16, []) ∧
    decode [0x3C#8, 0x34#8, 0x12#8] = .ok (.nop3C 0x1234#16, []) ∧
    decode [0x3D#8, 0x34#8, 0x12#8] = .ok (.andAbx 0x1234#16, []) ∧
    decode [0x3E#8, 0x34#8, 0x12#8] = .ok (.rolAbx 0x1234#16, []) ∧
    decode [0x3F#8, 0x34#8, 0x12#8] = .ok (.rlaAbx 0x1234#16, []) := by
  exact ⟨rfl, rfl, rfl, rfl, rfl, rfl, rfl, rfl, rfl, rfl, rfl, rfl, rfl, rfl, rfl, rfl⟩

/-- Row 4x of the opcode map (R135), each opcode before the bytes 0x34 and 0x12. -/
theorem test_decode_row_4 :
    decode [0x40#8, 0x34#8, 0x12#8] = .ok (.rti, [0x34#8, 0x12#8]) ∧
    decode [0x41#8, 0x34#8, 0x12#8] = .ok (.eorIzx 0x34#8, [0x12#8]) ∧
    decode [0x42#8, 0x34#8, 0x12#8] = .ok (.undef42, [0x34#8, 0x12#8]) ∧
    decode [0x43#8, 0x34#8, 0x12#8] = .ok (.sreIzx 0x34#8, [0x12#8]) ∧
    decode [0x44#8, 0x34#8, 0x12#8] = .ok (.nop44 0x34#8, [0x12#8]) ∧
    decode [0x45#8, 0x34#8, 0x12#8] = .ok (.eorZp 0x34#8, [0x12#8]) ∧
    decode [0x46#8, 0x34#8, 0x12#8] = .ok (.lsrZp 0x34#8, [0x12#8]) ∧
    decode [0x47#8, 0x34#8, 0x12#8] = .ok (.sreZp 0x34#8, [0x12#8]) ∧
    decode [0x48#8, 0x34#8, 0x12#8] = .ok (.pha, [0x34#8, 0x12#8]) ∧
    decode [0x49#8, 0x34#8, 0x12#8] = .ok (.eorImm 0x34#8, [0x12#8]) ∧
    decode [0x4A#8, 0x34#8, 0x12#8] = .ok (.lsrAcc, [0x34#8, 0x12#8]) ∧
    decode [0x4B#8, 0x34#8, 0x12#8] = .ok (.undef4B, [0x34#8, 0x12#8]) ∧
    decode [0x4C#8, 0x34#8, 0x12#8] = .ok (.jmpAbs 0x1234#16, []) ∧
    decode [0x4D#8, 0x34#8, 0x12#8] = .ok (.eorAbs 0x1234#16, []) ∧
    decode [0x4E#8, 0x34#8, 0x12#8] = .ok (.lsrAbs 0x1234#16, []) ∧
    decode [0x4F#8, 0x34#8, 0x12#8] = .ok (.sreAbs 0x1234#16, []) := by
  exact ⟨rfl, rfl, rfl, rfl, rfl, rfl, rfl, rfl, rfl, rfl, rfl, rfl, rfl, rfl, rfl, rfl⟩

/-- Row 5x of the opcode map (R135), each opcode before the bytes 0x34 and 0x12. -/
theorem test_decode_row_5 :
    decode [0x50#8, 0x34#8, 0x12#8] = .ok (.bvc 0x34#8, [0x12#8]) ∧
    decode [0x51#8, 0x34#8, 0x12#8] = .ok (.eorIzy 0x34#8, [0x12#8]) ∧
    decode [0x52#8, 0x34#8, 0x12#8] = .ok (.undef52, [0x34#8, 0x12#8]) ∧
    decode [0x53#8, 0x34#8, 0x12#8] = .ok (.sreIzy 0x34#8, [0x12#8]) ∧
    decode [0x54#8, 0x34#8, 0x12#8] = .ok (.nop54 0x34#8, [0x12#8]) ∧
    decode [0x55#8, 0x34#8, 0x12#8] = .ok (.eorZpx 0x34#8, [0x12#8]) ∧
    decode [0x56#8, 0x34#8, 0x12#8] = .ok (.lsrZpx 0x34#8, [0x12#8]) ∧
    decode [0x57#8, 0x34#8, 0x12#8] = .ok (.sreZpx 0x34#8, [0x12#8]) ∧
    decode [0x58#8, 0x34#8, 0x12#8] = .ok (.cli, [0x34#8, 0x12#8]) ∧
    decode [0x59#8, 0x34#8, 0x12#8] = .ok (.eorAby 0x1234#16, []) ∧
    decode [0x5A#8, 0x34#8, 0x12#8] = .ok (.nop5A, [0x34#8, 0x12#8]) ∧
    decode [0x5B#8, 0x34#8, 0x12#8] = .ok (.sreAby 0x1234#16, []) ∧
    decode [0x5C#8, 0x34#8, 0x12#8] = .ok (.nop5C 0x1234#16, []) ∧
    decode [0x5D#8, 0x34#8, 0x12#8] = .ok (.eorAbx 0x1234#16, []) ∧
    decode [0x5E#8, 0x34#8, 0x12#8] = .ok (.lsrAbx 0x1234#16, []) ∧
    decode [0x5F#8, 0x34#8, 0x12#8] = .ok (.sreAbx 0x1234#16, []) := by
  exact ⟨rfl, rfl, rfl, rfl, rfl, rfl, rfl, rfl, rfl, rfl, rfl, rfl, rfl, rfl, rfl, rfl⟩

/-- Row 6x of the opcode map (R135), each opcode before the bytes 0x34 and 0x12. -/
theorem test_decode_row_6 :
    decode [0x60#8, 0x34#8, 0x12#8] = .ok (.rts, [0x34#8, 0x12#8]) ∧
    decode [0x61#8, 0x34#8, 0x12#8] = .ok (.adcIzx 0x34#8, [0x12#8]) ∧
    decode [0x62#8, 0x34#8, 0x12#8] = .ok (.undef62, [0x34#8, 0x12#8]) ∧
    decode [0x63#8, 0x34#8, 0x12#8] = .ok (.rraIzx 0x34#8, [0x12#8]) ∧
    decode [0x64#8, 0x34#8, 0x12#8] = .ok (.nop64 0x34#8, [0x12#8]) ∧
    decode [0x65#8, 0x34#8, 0x12#8] = .ok (.adcZp 0x34#8, [0x12#8]) ∧
    decode [0x66#8, 0x34#8, 0x12#8] = .ok (.rorZp 0x34#8, [0x12#8]) ∧
    decode [0x67#8, 0x34#8, 0x12#8] = .ok (.rraZp 0x34#8, [0x12#8]) ∧
    decode [0x68#8, 0x34#8, 0x12#8] = .ok (.pla, [0x34#8, 0x12#8]) ∧
    decode [0x69#8, 0x34#8, 0x12#8] = .ok (.adcImm 0x34#8, [0x12#8]) ∧
    decode [0x6A#8, 0x34#8, 0x12#8] = .ok (.rorAcc, [0x34#8, 0x12#8]) ∧
    decode [0x6B#8, 0x34#8, 0x12#8] = .ok (.undef6B, [0x34#8, 0x12#8]) ∧
    decode [0x6C#8, 0x34#8, 0x12#8] = .ok (.jmpInd 0x1234#16, []) ∧
    decode [0x6D#8, 0x34#8, 0x12#8] = .ok (.adcAbs 0x1234#16, []) ∧
    decode [0x6E#8, 0x34#8, 0x12#8] = .ok (.rorAbs 0x1234#16, []) ∧
    decode [0x6F#8, 0x34#8, 0x12#8] = .ok (.rraAbs 0x1234#16, []) := by
  exact ⟨rfl, rfl, rfl, rfl, rfl, rfl, rfl, rfl, rfl, rfl, rfl, rfl, rfl, rfl, rfl, rfl⟩

/-- Row 7x of the opcode map (R135), each opcode before the bytes 0x34 and 0x12. -/
theorem test_decode_row_7 :
    decode [0x70#8, 0x34#8, 0x12#8] = .ok (.bvs 0x34#8, [0x12#8]) ∧
    decode [0x71#8, 0x34#8, 0x12#8] = .ok (.adcIzy 0x34#8, [0x12#8]) ∧
    decode [0x72#8, 0x34#8, 0x12#8] = .ok (.undef72, [0x34#8, 0x12#8]) ∧
    decode [0x73#8, 0x34#8, 0x12#8] = .ok (.rraIzy 0x34#8, [0x12#8]) ∧
    decode [0x74#8, 0x34#8, 0x12#8] = .ok (.nop74 0x34#8, [0x12#8]) ∧
    decode [0x75#8, 0x34#8, 0x12#8] = .ok (.adcZpx 0x34#8, [0x12#8]) ∧
    decode [0x76#8, 0x34#8, 0x12#8] = .ok (.rorZpx 0x34#8, [0x12#8]) ∧
    decode [0x77#8, 0x34#8, 0x12#8] = .ok (.rraZpx 0x34#8, [0x12#8]) ∧
    decode [0x78#8, 0x34#8, 0x12#8] = .ok (.sei, [0x34#8, 0x12#8]) ∧
    decode [0x79#8, 0x34#8, 0x12#8] = .ok (.adcAby 0x1234#16, []) ∧
    decode [0x7A#8, 0x34#8, 0x12#8] = .ok (.nop7A, [0x34#8, 0x12#8]) ∧
    decode [0x7B#8, 0x34#8, 0x12#8] = .ok (.rraAby 0x1234#16, []) ∧
    decode [0x7C#8, 0x34#8, 0x12#8] = .ok (.nop7C 0x1234#16, []) ∧
    decode [0x7D#8, 0x34#8, 0x12#8] = .ok (.adcAbx 0x1234#16, []) ∧
    decode [0x7E#8, 0x34#8, 0x12#8] = .ok (.rorAbx 0x1234#16, []) ∧
    decode [0x7F#8, 0x34#8, 0x12#8] = .ok (.rraAbx 0x1234#16, []) := by
  exact ⟨rfl, rfl, rfl, rfl, rfl, rfl, rfl, rfl, rfl, rfl, rfl, rfl, rfl, rfl, rfl, rfl⟩

/-- Row 8x of the opcode map (R135), each opcode before the bytes 0x34 and 0x12. -/
theorem test_decode_row_8 :
    decode [0x80#8, 0x34#8, 0x12#8] = .ok (.nop80 0x34#8, [0x12#8]) ∧
    decode [0x81#8, 0x34#8, 0x12#8] = .ok (.staIzx 0x34#8, [0x12#8]) ∧
    decode [0x82#8, 0x34#8, 0x12#8] = .ok (.nop82 0x34#8, [0x12#8]) ∧
    decode [0x83#8, 0x34#8, 0x12#8] = .ok (.saxIzx 0x34#8, [0x12#8]) ∧
    decode [0x84#8, 0x34#8, 0x12#8] = .ok (.styZp 0x34#8, [0x12#8]) ∧
    decode [0x85#8, 0x34#8, 0x12#8] = .ok (.staZp 0x34#8, [0x12#8]) ∧
    decode [0x86#8, 0x34#8, 0x12#8] = .ok (.stxZp 0x34#8, [0x12#8]) ∧
    decode [0x87#8, 0x34#8, 0x12#8] = .ok (.saxZp 0x34#8, [0x12#8]) ∧
    decode [0x88#8, 0x34#8, 0x12#8] = .ok (.dey, [0x34#8, 0x12#8]) ∧
    decode [0x89#8, 0x34#8, 0x12#8] = .ok (.nop89 0x34#8, [0x12#8]) ∧
    decode [0x8A#8, 0x34#8, 0x12#8] = .ok (.txa, [0x34#8, 0x12#8]) ∧
    decode [0x8B#8, 0x34#8, 0x12#8] = .ok (.undef8B, [0x34#8, 0x12#8]) ∧
    decode [0x8C#8, 0x34#8, 0x12#8] = .ok (.styAbs 0x1234#16, []) ∧
    decode [0x8D#8, 0x34#8, 0x12#8] = .ok (.staAbs 0x1234#16, []) ∧
    decode [0x8E#8, 0x34#8, 0x12#8] = .ok (.stxAbs 0x1234#16, []) ∧
    decode [0x8F#8, 0x34#8, 0x12#8] = .ok (.saxAbs 0x1234#16, []) := by
  exact ⟨rfl, rfl, rfl, rfl, rfl, rfl, rfl, rfl, rfl, rfl, rfl, rfl, rfl, rfl, rfl, rfl⟩

/-- Row 9x of the opcode map (R135), each opcode before the bytes 0x34 and 0x12. -/
theorem test_decode_row_9 :
    decode [0x90#8, 0x34#8, 0x12#8] = .ok (.bcc 0x34#8, [0x12#8]) ∧
    decode [0x91#8, 0x34#8, 0x12#8] = .ok (.staIzy 0x34#8, [0x12#8]) ∧
    decode [0x92#8, 0x34#8, 0x12#8] = .ok (.undef92, [0x34#8, 0x12#8]) ∧
    decode [0x93#8, 0x34#8, 0x12#8] = .ok (.undef93, [0x34#8, 0x12#8]) ∧
    decode [0x94#8, 0x34#8, 0x12#8] = .ok (.styZpx 0x34#8, [0x12#8]) ∧
    decode [0x95#8, 0x34#8, 0x12#8] = .ok (.staZpx 0x34#8, [0x12#8]) ∧
    decode [0x96#8, 0x34#8, 0x12#8] = .ok (.stxZpy 0x34#8, [0x12#8]) ∧
    decode [0x97#8, 0x34#8, 0x12#8] = .ok (.saxZpy 0x34#8, [0x12#8]) ∧
    decode [0x98#8, 0x34#8, 0x12#8] = .ok (.tya, [0x34#8, 0x12#8]) ∧
    decode [0x99#8, 0x34#8, 0x12#8] = .ok (.staAby 0x1234#16, []) ∧
    decode [0x9A#8, 0x34#8, 0x12#8] = .ok (.txs, [0x34#8, 0x12#8]) ∧
    decode [0x9B#8, 0x34#8, 0x12#8] = .ok (.undef9B, [0x34#8, 0x12#8]) ∧
    decode [0x9C#8, 0x34#8, 0x12#8] = .ok (.undef9C, [0x34#8, 0x12#8]) ∧
    decode [0x9D#8, 0x34#8, 0x12#8] = .ok (.staAbx 0x1234#16, []) ∧
    decode [0x9E#8, 0x34#8, 0x12#8] = .ok (.undef9E, [0x34#8, 0x12#8]) ∧
    decode [0x9F#8, 0x34#8, 0x12#8] = .ok (.undef9F, [0x34#8, 0x12#8]) := by
  exact ⟨rfl, rfl, rfl, rfl, rfl, rfl, rfl, rfl, rfl, rfl, rfl, rfl, rfl, rfl, rfl, rfl⟩

/-- Row Ax of the opcode map (R135), each opcode before the bytes 0x34 and 0x12. -/
theorem test_decode_row_A :
    decode [0xA0#8, 0x34#8, 0x12#8] = .ok (.ldyImm 0x34#8, [0x12#8]) ∧
    decode [0xA1#8, 0x34#8, 0x12#8] = .ok (.ldaIzx 0x34#8, [0x12#8]) ∧
    decode [0xA2#8, 0x34#8, 0x12#8] = .ok (.ldxImm 0x34#8, [0x12#8]) ∧
    decode [0xA3#8, 0x34#8, 0x12#8] = .ok (.laxIzx 0x34#8, [0x12#8]) ∧
    decode [0xA4#8, 0x34#8, 0x12#8] = .ok (.ldyZp 0x34#8, [0x12#8]) ∧
    decode [0xA5#8, 0x34#8, 0x12#8] = .ok (.ldaZp 0x34#8, [0x12#8]) ∧
    decode [0xA6#8, 0x34#8, 0x12#8] = .ok (.ldxZp 0x34#8, [0x12#8]) ∧
    decode [0xA7#8, 0x34#8, 0x12#8] = .ok (.laxZp 0x34#8, [0x12#8]) ∧
    decode [0xA8#8, 0x34#8, 0x12#8] = .ok (.tay, [0x34#8, 0x12#8]) ∧
    decode [0xA9#8, 0x34#8, 0x12#8] = .ok (.ldaImm 0x34#8, [0x12#8]) ∧
    decode [0xAA#8, 0x34#8, 0x12#8] = .ok (.tax, [0x34#8, 0x12#8]) ∧
    decode [0xAB#8, 0x34#8, 0x12#8] = .ok (.undefAB, [0x34#8, 0x12#8]) ∧
    decode [0xAC#8, 0x34#8, 0x12#8] = .ok (.ldyAbs 0x1234#16, []) ∧
    decode [0xAD#8, 0x34#8, 0x12#8] = .ok (.ldaAbs 0x1234#16, []) ∧
    decode [0xAE#8, 0x34#8, 0x12#8] = .ok (.ldxAbs 0x1234#16, []) ∧
    decode [0xAF#8, 0x34#8, 0x12#8] = .ok (.laxAbs 0x1234#16, []) := by
  exact ⟨rfl, rfl, rfl, rfl, rfl, rfl, rfl, rfl, rfl, rfl, rfl, rfl, rfl, rfl, rfl, rfl⟩

/-- Row Bx of the opcode map (R135), each opcode before the bytes 0x34 and 0x12. -/
theorem test_decode_row_B :
    decode [0xB0#8, 0x34#8, 0x12#8] = .ok (.bcs 0x34#8, [0x12#8]) ∧
    decode [0xB1#8, 0x34#8, 0x12#8] = .ok (.ldaIzy 0x34#8, [0x12#8]) ∧
    decode [0xB2#8, 0x34#8, 0x12#8] = .ok (.undefB2, [0x34#8, 0x12#8]) ∧
    decode [0xB3#8, 0x34#8, 0x12#8] = .ok (.laxIzy 0x34#8, [0x12#8]) ∧
    decode [0xB4#8, 0x34#8, 0x12#8] = .ok (.ldyZpx 0x34#8, [0x12#8]) ∧
    decode [0xB5#8, 0x34#8, 0x12#8] = .ok (.ldaZpx 0x34#8, [0x12#8]) ∧
    decode [0xB6#8, 0x34#8, 0x12#8] = .ok (.ldxZpy 0x34#8, [0x12#8]) ∧
    decode [0xB7#8, 0x34#8, 0x12#8] = .ok (.laxZpy 0x34#8, [0x12#8]) ∧
    decode [0xB8#8, 0x34#8, 0x12#8] = .ok (.clv, [0x34#8, 0x12#8]) ∧
    decode [0xB9#8, 0x34#8, 0x12#8] = .ok (.ldaAby 0x1234#16, []) ∧
    decode [0xBA#8, 0x34#8, 0x12#8] = .ok (.tsx, [0x34#8, 0x12#8]) ∧
    decode [0xBB#8, 0x34#8, 0x12#8] = .ok (.undefBB, [0x34#8, 0x12#8]) ∧
    decode [0xBC#8, 0x34#8, 0x12#8] = .ok (.ldyAbx 0x1234#16, []) ∧
    decode [0xBD#8, 0x34#8, 0x12#8] = .ok (.ldaAbx 0x1234#16, []) ∧
    decode [0xBE#8, 0x34#8, 0x12#8] = .ok (.ldxAby 0x1234#16, []) ∧
    decode [0xBF#8, 0x34#8, 0x12#8] = .ok (.laxAby 0x1234#16, []) := by
  exact ⟨rfl, rfl, rfl, rfl, rfl, rfl, rfl, rfl, rfl, rfl, rfl, rfl, rfl, rfl, rfl, rfl⟩

/-- Row Cx of the opcode map (R135), each opcode before the bytes 0x34 and 0x12. -/
theorem test_decode_row_C :
    decode [0xC0#8, 0x34#8, 0x12#8] = .ok (.cpyImm 0x34#8, [0x12#8]) ∧
    decode [0xC1#8, 0x34#8, 0x12#8] = .ok (.cmpIzx 0x34#8, [0x12#8]) ∧
    decode [0xC2#8, 0x34#8, 0x12#8] = .ok (.nopC2 0x34#8, [0x12#8]) ∧
    decode [0xC3#8, 0x34#8, 0x12#8] = .ok (.dcpIzx 0x34#8, [0x12#8]) ∧
    decode [0xC4#8, 0x34#8, 0x12#8] = .ok (.cpyZp 0x34#8, [0x12#8]) ∧
    decode [0xC5#8, 0x34#8, 0x12#8] = .ok (.cmpZp 0x34#8, [0x12#8]) ∧
    decode [0xC6#8, 0x34#8, 0x12#8] = .ok (.decZp 0x34#8, [0x12#8]) ∧
    decode [0xC7#8, 0x34#8, 0x12#8] = .ok (.dcpZp 0x34#8, [0x12#8]) ∧
    decode [0xC8#8, 0x34#8, 0x12#8] = .ok (.iny, [0x34#8, 0x12#8]) ∧
    decode [0xC9#8, 0x34#8, 0x12#8] = .ok (.cmpImm 0x34#8, [0x12#8]) ∧
    decode [0xCA#8, 0x34#8, 0x12#8] = .ok (.dex, [0x34#8, 0x12#8]) ∧
    decode [0xCB#8, 0x34#8, 0x12#8] = .ok (.undefCB, [0x34#8, 0x12#8]) ∧
    decode [0xCC#8, 0x34#8, 0x12#8] = .ok (.cpyAbs 0x1234#16, []) ∧
    decode [0xCD#8, 0x34#8, 0x12#8] = .ok (.cmpAbs 0x1234#16, []) ∧
    decode [0xCE#8, 0x34#8, 0x12#8] = .ok (.decAbs 0x1234#16, []) ∧
    decode [0xCF#8, 0x34#8, 0x12#8] = .ok (.dcpAbs 0x1234#16, []) := by
  exact ⟨rfl, rfl, rfl, rfl, rfl, rfl, rfl, rfl, rfl, rfl, rfl, rfl, rfl, rfl, rfl, rfl⟩

/-- Row Dx of the opcode map (R135), each opcode before the bytes 0x34 and 0x12. -/
theorem test_decode_row_D :
    decode [0xD0#8, 0x34#8, 0x12#8] = .ok (.bne 0x34#8, [0x12#8]) ∧
    decode [0xD1#8, 0x34#8, 0x12#8] = .ok (.cmpIzy 0x34#8, [0x12#8]) ∧
    decode [0xD2#8, 0x34#8, 0x12#8] = .ok (.undefD2, [0x34#8, 0x12#8]) ∧
    decode [0xD3#8, 0x34#8, 0x12#8] = .ok (.dcpIzy 0x34#8, [0x12#8]) ∧
    decode [0xD4#8, 0x34#8, 0x12#8] = .ok (.nopD4 0x34#8, [0x12#8]) ∧
    decode [0xD5#8, 0x34#8, 0x12#8] = .ok (.cmpZpx 0x34#8, [0x12#8]) ∧
    decode [0xD6#8, 0x34#8, 0x12#8] = .ok (.decZpx 0x34#8, [0x12#8]) ∧
    decode [0xD7#8, 0x34#8, 0x12#8] = .ok (.dcpZpx 0x34#8, [0x12#8]) ∧
    decode [0xD8#8, 0x34#8, 0x12#8] = .ok (.cld, [0x34#8, 0x12#8]) ∧
    decode [0xD9#8, 0x34#8, 0x12#8] = .ok (.cmpAby 0x1234#16, []) ∧
    decode [0xDA#8, 0x34#8, 0x12#8] = .ok (.nopDA, [0x34#8, 0x12#8]) ∧
    decode [0xDB#8, 0x34#8, 0x12#8] = .ok (.dcpAby 0x1234#16, []) ∧
    decode [0xDC#8, 0x34#8, 0x12#8] = .ok (.nopDC 0x1234#16, []) ∧
    decode [0xDD#8, 0x34#8, 0x12#8] = .ok (.cmpAbx 0x1234#16, []) ∧
    decode [0xDE#8, 0x34#8, 0x12#8] = .ok (.decAbx 0x1234#16, []) ∧
    decode [0xDF#8, 0x34#8, 0x12#8] = .ok (.dcpAbx 0x1234#16, []) := by
  exact ⟨rfl, rfl, rfl, rfl, rfl, rfl, rfl, rfl, rfl, rfl, rfl, rfl, rfl, rfl, rfl, rfl⟩

/-- Row Ex of the opcode map (R135), each opcode before the bytes 0x34 and 0x12. -/
theorem test_decode_row_E :
    decode [0xE0#8, 0x34#8, 0x12#8] = .ok (.cpxImm 0x34#8, [0x12#8]) ∧
    decode [0xE1#8, 0x34#8, 0x12#8] = .ok (.sbcIzx 0x34#8, [0x12#8]) ∧
    decode [0xE2#8, 0x34#8, 0x12#8] = .ok (.nopE2 0x34#8, [0x12#8]) ∧
    decode [0xE3#8, 0x34#8, 0x12#8] = .ok (.isbIzx 0x34#8, [0x12#8]) ∧
    decode [0xE4#8, 0x34#8, 0x12#8] = .ok (.cpxZp 0x34#8, [0x12#8]) ∧
    decode [0xE5#8, 0x34#8, 0x12#8] = .ok (.sbcZp 0x34#8, [0x12#8]) ∧
    decode [0xE6#8, 0x34#8, 0x12#8] = .ok (.incZp 0x34#8, [0x12#8]) ∧
    decode [0xE7#8, 0x34#8, 0x12#8] = .ok (.isbZp 0x34#8, [0x12#8]) ∧
    decode [0xE8#8, 0x34#8, 0x12#8] = .ok (.inx, [0x34#8, 0x12#8]) ∧
    decode [0xE9#8, 0x34#8, 0x12#8] = .ok (.sbcImm 0x34#8, [0x12#8]) ∧
    decode [0xEA#8, 0x34#8, 0x12#8] = .ok (.nop, [0x34#8, 0x12#8]) ∧
    decode [0xEB#8, 0x34#8, 0x12#8] = .ok (.sbcImmEB 0x34#8, [0x12#8]) ∧
    decode [0xEC#8, 0x34#8, 0x12#8] = .ok (.cpxAbs 0x1234#16, []) ∧
    decode [0xED#8, 0x34#8, 0x12#8] = .ok (.sbcAbs 0x1234#16, []) ∧
    decode [0xEE#8, 0x34#8, 0x12#8] = .ok (.incAbs 0x1234#16, []) ∧
    decode [0xEF#8, 0x34#8, 0x12#8] = .ok (.isbAbs 0x1234#16, []) := by
  exact ⟨rfl, rfl, rfl, rfl, rfl, rfl, rfl, rfl, rfl, rfl, rfl, rfl, rfl, rfl, rfl, rfl⟩

/-- Row Fx of the opcode map (R135), each opcode before the bytes 0x34 and 0x12. -/
theorem test_decode_row_F :
    decode [0xF0#8, 0x34#8, 0x12#8] = .ok (.beq 0x34#8, [0x12#8]) ∧
    decode [0xF1#8, 0x34#8, 0x12#8] = .ok (.sbcIzy 0x34#8, [0x12#8]) ∧
    decode [0xF2#8, 0x34#8, 0x12#8] = .ok (.undefF2, [0x34#8, 0x12#8]) ∧
    decode [0xF3#8, 0x34#8, 0x12#8] = .ok (.isbIzy 0x34#8, [0x12#8]) ∧
    decode [0xF4#8, 0x34#8, 0x12#8] = .ok (.nopF4 0x34#8, [0x12#8]) ∧
    decode [0xF5#8, 0x34#8, 0x12#8] = .ok (.sbcZpx 0x34#8, [0x12#8]) ∧
    decode [0xF6#8, 0x34#8, 0x12#8] = .ok (.incZpx 0x34#8, [0x12#8]) ∧
    decode [0xF7#8, 0x34#8, 0x12#8] = .ok (.isbZpx 0x34#8, [0x12#8]) ∧
    decode [0xF8#8, 0x34#8, 0x12#8] = .ok (.sed, [0x34#8, 0x12#8]) ∧
    decode [0xF9#8, 0x34#8, 0x12#8] = .ok (.sbcAby 0x1234#16, []) ∧
    decode [0xFA#8, 0x34#8, 0x12#8] = .ok (.nopFA, [0x34#8, 0x12#8]) ∧
    decode [0xFB#8, 0x34#8, 0x12#8] = .ok (.isbAby 0x1234#16, []) ∧
    decode [0xFC#8, 0x34#8, 0x12#8] = .ok (.nopFC 0x1234#16, []) ∧
    decode [0xFD#8, 0x34#8, 0x12#8] = .ok (.sbcAbx 0x1234#16, []) ∧
    decode [0xFE#8, 0x34#8, 0x12#8] = .ok (.incAbx 0x1234#16, []) ∧
    decode [0xFF#8, 0x34#8, 0x12#8] = .ok (.isbAbx 0x1234#16, []) := by
  exact ⟨rfl, rfl, rfl, rfl, rfl, rfl, rfl, rfl, rfl, rfl, rfl, rfl, rfl, rfl, rfl, rfl⟩

/-- One word of each family written out bit by bit, aaabbbcc first (R132, R133, R135). -/
theorem test_words_bit_by_bit :
    decode [0b10101001#8, 0x80#8] = .ok (.ldaImm 0x80#8, []) ∧
    decode [0b10010001#8, 0x10#8] = .ok (.staIzy 0x10#8, []) ∧
    decode [0b10101010#8] = .ok (.tax, []) ∧
    decode [0b01111101#8, 0x34#8, 0x12#8] = .ok (.adcAbx 0x1234#16, []) ∧
    decode [0b11001010#8] = .ok (.dex, []) ∧
    decode [0b00100100#8, 0x10#8] = .ok (.bitZp 0x10#8, []) ∧
    decode [0b01101010#8] = .ok (.rorAcc, []) ∧
    decode [0b11100000#8, 0x05#8] = .ok (.cpxImm 0x05#8, []) ∧
    decode [0b11010000#8, 0xFD#8] = .ok (.bne 0xFD#8, []) ∧
    decode [0b01101100#8, 0xFF#8, 0x10#8] = .ok (.jmpInd 0x10FF#16, []) ∧
    decode [0b00101000#8] = .ok (.plp, []) ∧
    decode [0b01111000#8] = .ok (.sei, []) ∧
    decode [0b00000000#8] = .ok (.brk, []) ∧
    decode [0b10100111#8, 0x20#8] = .ok (.laxZp 0x20#8, []) ∧
    decode [0b00000010#8] = .ok (.undef02, []) := by
  exact ⟨rfl, rfl, rfl, rfl, rfl, rfl, rfl, rfl, rfl, rfl, rfl, rfl, rfl, rfl, rfl⟩

/-- Words numbered as the opcode table numbers them: the first byte lowest. -/
theorem test_table_words :
    decodeTableWord 8 0xEA = some .nop ∧ decodeTableWord 8 0xA9 = some (.ldaImm 0#8) ∧
      decodeTableWord 16 0x80A9 = some (.ldaImm 0x80#8) ∧ decodeTableWord 24 0x12344C = some (.jmpAbs 0x1234#16) ∧
      decodeTableWord 8 0x20 = some (.jsr 0#8) := by decide

/-- The instruction placed with withFetchWord is the one the next step runs: LDA #$80 right after reset. -/
theorem test_step_runs_the_placed_word :
    (match step (State.reset.withFetchWord 16 0x80A9) with
      | .next t => some (t.a, t.p.n, t.pc)
      | .fault _ => none
      | .refused _ => none) = some (0x80#8, true, 0x0002#16) := by decide

/-! ### Instructions: the vectors W2, W3 and V1 to V10 -/

/-- W2: LDA $12FF,X crosses. -/
theorem test_lda_abx_crosses :
    run (start 0x00#8 0x01#8 0x00#8 0xFD#8 0x04#8) [0xBD#8, 0xFF#8, 0x12#8] [(0x1300#16, 0x42#8)] 0x07FF#16 =
      some (⟨0x42#8, 0x01#8, 0x00#8, 0xFD#8, 0x34#8, 0x0203#16, 5⟩, some 0xFF#8) := by decide

/-- W2: LDA $FFFF,X wraps to 0x0000. -/
theorem test_lda_abx_wraps :
    run (start 0x00#8 0x01#8 0x00#8 0xFD#8 0x04#8) [0xBD#8, 0xFF#8, 0xFF#8] [(0x0000#16, 0x42#8)] 0x07FF#16 =
      some (⟨0x42#8, 0x01#8, 0x00#8, 0xFD#8, 0x34#8, 0x0203#16, 5⟩, some 0xFF#8) := by decide

/-- W2, V2: STA $0300,X is one tick longer without a cross. -/
theorem test_sta_abx_always_waits :
    run (start 0x12#8 0x00#8 0x00#8 0xFD#8 0x04#8) [0x9D#8, 0x00#8, 0x03#8] [] 0x0300#16 =
      some (⟨0x12#8, 0x00#8, 0x00#8, 0xFD#8, 0x34#8, 0x0203#16, 5⟩, some 0x12#8) := by decide

/-- W2: LDA ($FF),Y takes its high byte from 0x0000. -/
theorem test_lda_izy_pointer_wraps :
    run (start 0x00#8 0x00#8 0x10#8 0xFD#8 0x04#8) [0xB1#8, 0xFF#8] [(0x00FF#16, 0xF8#8), (0x0000#16, 0x12#8), (0x1308#16, 0x77#8)] 0x07FF#16 =
      some (⟨0x77#8, 0x00#8, 0x10#8, 0xFD#8, 0x34#8, 0x0202#16, 6⟩, some 0xFF#8) := by decide

/-- W2: INC abx without a cross takes 7 ticks (here at 0x1300). -/
theorem test_inc_abx_always_waits :
    run (start 0x00#8 0x00#8 0x00#8 0xFD#8 0x04#8) [0xFE#8, 0x00#8, 0x13#8] [(0x1300#16, 0x41#8)] 0x1300#16 =
      some (⟨0x00#8, 0x00#8, 0x00#8, 0xFD#8, 0x34#8, 0x0203#16, 7⟩, some 0x42#8) := by decide

/-- W2: the unofficial NOP $02FF,X crosses. -/
theorem test_nop_abx_crosses :
    run (start 0x00#8 0x01#8 0x00#8 0xFD#8 0x04#8) [0x1C#8, 0xFF#8, 0x02#8] [] 0x07FF#16 =
      some (⟨0x00#8, 0x01#8, 0x00#8, 0xFD#8, 0x34#8, 0x0203#16, 5⟩, some 0xFF#8) := by decide

/-- W3: JMP ($10FF) takes its high byte from 0x1000. -/
theorem test_jmp_ind_stays_in_page :
    run (start 0x00#8 0x00#8 0x00#8 0xFD#8 0x04#8) [0x6C#8, 0xFF#8, 0x10#8] [(0x00FF#16, 0x20#8), (0x0000#16, 0x80#8)] 0x07FF#16 =
      some (⟨0x00#8, 0x00#8, 0x00#8, 0xFD#8, 0x34#8, 0x8020#16, 5⟩, some 0xFF#8) := by decide

/-- W3: JMP ($02FF) takes its high byte from its own opcode. -/
theorem test_jmp_ind_own_page :
    run (start 0x00#8 0x00#8 0x00#8 0xFD#8 0x04#8) [0x6C#8, 0xFF#8, 0x02#8] [(0x02FF#16, 0x34#8)] 0x07FF#16 =
      some (⟨0x00#8, 0x00#8, 0x00#8, 0xFD#8, 0x34#8, 0x6C34#16, 5⟩, some 0xFF#8) := by decide

/-- V1: LDA $FF,X stays in page zero. -/
theorem test_lda_zpx_wraps :
    run (start 0x00#8 0x02#8 0x00#8 0xFD#8 0x04#8) [0xB5#8, 0xFF#8] [(0x0001#16, 0x42#8)] 0x07FF#16 =
      some (⟨0x42#8, 0x02#8, 0x00#8, 0xFD#8, 0x34#8, 0x0202#16, 4⟩, some 0xFF#8) := by decide

/-- V1: LDX $FF,Y stays in page zero. -/
theorem test_ldx_zpy_wraps :
    run (start 0x00#8 0x00#8 0x01#8 0xFD#8 0x04#8) [0xB6#8, 0xFF#8] [(0x0000#16, 0x99#8)] 0x07FF#16 =
      some (⟨0x00#8, 0x99#8, 0x01#8, 0xFD#8, 0xB4#8, 0x0202#16, 4⟩, some 0xFF#8) := by decide

/-- V1: LDA ($FF,X). -/
theorem test_lda_izx_pointer_wraps :
    run (start 0x00#8 0x00#8 0x00#8 0xFD#8 0x04#8) [0xA1#8, 0xFF#8] [(0x00FF#16, 0x34#8), (0x0000#16, 0x03#8), (0x0334#16, 0x5A#8)] 0x07FF#16 =
      some (⟨0x5A#8, 0x00#8, 0x00#8, 0xFD#8, 0x34#8, 0x0202#16, 6⟩, some 0xFF#8) := by decide

/-- V1: LDA ($10),Y. -/
theorem test_lda_izy_crosses :
    run (start 0x00#8 0x00#8 0x10#8 0xFD#8 0x04#8) [0xB1#8, 0x10#8] [(0x0010#16, 0xF8#8), (0x0011#16, 0x02#8), (0x0308#16, 0x77#8)] 0x07FF#16 =
      some (⟨0x77#8, 0x00#8, 0x10#8, 0xFD#8, 0x34#8, 0x0202#16, 6⟩, some 0xFF#8) := by decide

/-- V1: INC $10,X. -/
theorem test_inc_zpx_wraps :
    run (start 0x00#8 0xF5#8 0x00#8 0xFD#8 0x04#8) [0xF6#8, 0x10#8] [(0x0005#16, 0x7F#8)] 0x0005#16 =
      some (⟨0x00#8, 0xF5#8, 0x00#8, 0xFD#8, 0xB4#8, 0x0202#16, 6⟩, some 0x80#8) := by decide

/-- V1: STX $FF,Y. -/
theorem test_stx_zpy_wraps :
    run (start 0x00#8 0x7E#8 0x01#8 0xFD#8 0x04#8) [0x96#8, 0xFF#8] [] 0x0000#16 =
      some (⟨0x00#8, 0x7E#8, 0x01#8, 0xFD#8, 0x34#8, 0x0202#16, 4⟩, some 0x7E#8) := by decide

/-- V2: LDA #$00. -/
theorem test_lda_imm_zero :
    run (start 0x55#8 0x00#8 0x00#8 0xFD#8 0x04#8) [0xA9#8, 0x00#8] [] 0x07FF#16 =
      some (⟨0x00#8, 0x00#8, 0x00#8, 0xFD#8, 0x36#8, 0x0202#16, 2⟩, some 0xFF#8) := by decide

/-- V2: LDA #$80. -/
theorem test_lda_imm_negative :
    run (start 0x00#8 0x00#8 0x00#8 0xFD#8 0x04#8) [0xA9#8, 0x80#8] [] 0x07FF#16 =
      some (⟨0x80#8, 0x00#8, 0x00#8, 0xFD#8, 0xB4#8, 0x0202#16, 2⟩, some 0xFF#8) := by decide

/-- V2: LDA $02FF,Y. -/
theorem test_lda_aby :
    run (start 0x00#8 0x00#8 0x01#8 0xFD#8 0x04#8) [0xB9#8, 0xFF#8, 0x02#8] [(0x0300#16, 0x11#8)] 0x07FF#16 =
      some (⟨0x11#8, 0x00#8, 0x01#8, 0xFD#8, 0x34#8, 0x0203#16, 5⟩, some 0xFF#8) := by decide

/-- V2: STA ($10),Y. -/
theorem test_sta_izy :
    run (start 0x12#8 0x00#8 0x00#8 0xFD#8 0x04#8) [0x91#8, 0x10#8] [(0x0010#16, 0x00#8), (0x0011#16, 0x03#8)] 0x0300#16 =
      some (⟨0x12#8, 0x00#8, 0x00#8, 0xFD#8, 0x34#8, 0x0202#16, 6⟩, some 0x12#8) := by decide

/-- V3: TAX. -/
theorem test_tax :
    run (start 0x80#8 0x00#8 0x00#8 0xFD#8 0x04#8) [0xAA#8] [] 0x07FF#16 =
      some (⟨0x80#8, 0x80#8, 0x00#8, 0xFD#8, 0xB4#8, 0x0201#16, 2⟩, some 0xFF#8) := by decide

/-- V3: TXS writes no flag. -/
theorem test_txs_no_flags :
    run (start 0x00#8 0x00#8 0x00#8 0xFD#8 0x04#8) [0x9A#8] [] 0x07FF#16 =
      some (⟨0x00#8, 0x00#8, 0x00#8, 0x00#8, 0x34#8, 0x0201#16, 2⟩, some 0xFF#8) := by decide

/-- V3: TSX. -/
theorem test_tsx :
    run (start 0x00#8 0x00#8 0x00#8 0x00#8 0x04#8) [0xBA#8] [] 0x07FF#16 =
      some (⟨0x00#8, 0x00#8, 0x00#8, 0x00#8, 0x36#8, 0x0201#16, 2⟩, some 0xFF#8) := by decide

/-- V3: TYA. -/
theorem test_tya :
    run (start 0x05#8 0x00#8 0x00#8 0xFD#8 0x04#8) [0x98#8] [] 0x07FF#16 =
      some (⟨0x00#8, 0x00#8, 0x00#8, 0xFD#8, 0x36#8, 0x0201#16, 2⟩, some 0xFF#8) := by decide

/-- V4: ADC #$50 from 50 with C = 0. -/
theorem test_adc_overflows :
    run (start 0x50#8 0x00#8 0x00#8 0xFD#8 0x04#8) [0x69#8, 0x50#8] [] 0x07FF#16 =
      some (⟨0xA0#8, 0x00#8, 0x00#8, 0xFD#8, 0xF4#8, 0x0202#16, 2⟩, some 0xFF#8) := by decide

/-- V4: ADC #$FF from 80 with C = 0. -/
theorem test_adc_carries_both_ways :
    run (start 0x80#8 0x00#8 0x00#8 0xFD#8 0x04#8) [0x69#8, 0xFF#8] [] 0x07FF#16 =
      some (⟨0x7F#8, 0x00#8, 0x00#8, 0xFD#8, 0x75#8, 0x0202#16, 2⟩, some 0xFF#8) := by decide

/-- V4: ADC #$09 from 09 with C = 0. -/
theorem test_adc_ignores_decimal :
    run (start 0x09#8 0x00#8 0x00#8 0xFD#8 0x0C#8) [0x69#8, 0x09#8] [] 0x07FF#16 =
      some (⟨0x12#8, 0x00#8, 0x00#8, 0xFD#8, 0x3C#8, 0x0202#16, 2⟩, some 0xFF#8) := by decide

/-- V4: SBC #$B0 from 50 with C = 1. -/
theorem test_sbc_overflows :
    run (start 0x50#8 0x00#8 0x00#8 0xFD#8 0x05#8) [0xE9#8, 0xB0#8] [] 0x07FF#16 =
      some (⟨0xA0#8, 0x00#8, 0x00#8, 0xFD#8, 0xF4#8, 0x0202#16, 2⟩, some 0xFF#8) := by decide

/-- V4: SBC #$03 from 05 with C = 0. -/
theorem test_sbc_borrows_in :
    run (start 0x05#8 0x00#8 0x00#8 0xFD#8 0x04#8) [0xE9#8, 0x03#8] [] 0x07FF#16 =
      some (⟨0x01#8, 0x00#8, 0x00#8, 0xFD#8, 0x35#8, 0x0202#16, 2⟩, some 0xFF#8) := by decide

/-- V4: SBC #$01 from 00 with C = 1. -/
theorem test_sbc_borrows_out :
    run (start 0x00#8 0x00#8 0x00#8 0xFD#8 0x05#8) [0xE9#8, 0x01#8] [] 0x07FF#16 =
      some (⟨0xFF#8, 0x00#8, 0x00#8, 0xFD#8, 0xB4#8, 0x0202#16, 2⟩, some 0xFF#8) := by decide

/-- V4: INC $10. -/
theorem test_inc_zp_to_zero :
    run (start 0x00#8 0x00#8 0x00#8 0xFD#8 0x45#8) [0xE6#8, 0x10#8] [(0x0010#16, 0xFF#8)] 0x0010#16 =
      some (⟨0x00#8, 0x00#8, 0x00#8, 0xFD#8, 0x77#8, 0x0202#16, 5⟩, some 0x00#8) := by decide

/-- V4: DEC $10. -/
theorem test_dec_zp_to_ff :
    run (start 0x00#8 0x00#8 0x00#8 0xFD#8 0x04#8) [0xC6#8, 0x10#8] [(0x0010#16, 0x00#8)] 0x0010#16 =
      some (⟨0x00#8, 0x00#8, 0x00#8, 0xFD#8, 0xB4#8, 0x0202#16, 5⟩, some 0xFF#8) := by decide

/-- V4: DEX. -/
theorem test_dex :
    run (start 0x00#8 0x00#8 0x00#8 0xFD#8 0x04#8) [0xCA#8] [] 0x07FF#16 =
      some (⟨0x00#8, 0xFF#8, 0x00#8, 0xFD#8, 0xB4#8, 0x0201#16, 2⟩, some 0xFF#8) := by decide

/-- V4: INY. -/
theorem test_iny :
    run (start 0x00#8 0x00#8 0xFF#8 0xFD#8 0x04#8) [0xC8#8] [] 0x07FF#16 =
      some (⟨0x00#8, 0x00#8, 0x00#8, 0xFD#8, 0x36#8, 0x0201#16, 2⟩, some 0xFF#8) := by decide

/-- V4: INX. -/
theorem test_inx :
    run (start 0x00#8 0x7F#8 0x00#8 0xFD#8 0x04#8) [0xE8#8] [] 0x07FF#16 =
      some (⟨0x00#8, 0x80#8, 0x00#8, 0xFD#8, 0xB4#8, 0x0201#16, 2⟩, some 0xFF#8) := by decide

/-- V5: AND #$0F. -/
theorem test_and :
    run (start 0xF0#8 0x00#8 0x00#8 0xFD#8 0x04#8) [0x29#8, 0x0F#8] [] 0x07FF#16 =
      some (⟨0x00#8, 0x00#8, 0x00#8, 0xFD#8, 0x36#8, 0x0202#16, 2⟩, some 0xFF#8) := by decide

/-- V5: ORA #$80. -/
theorem test_ora :
    run (start 0x01#8 0x00#8 0x00#8 0xFD#8 0x04#8) [0x09#8, 0x80#8] [] 0x07FF#16 =
      some (⟨0x81#8, 0x00#8, 0x00#8, 0xFD#8, 0xB4#8, 0x0202#16, 2⟩, some 0xFF#8) := by decide

/-- V5: EOR #$FF. -/
theorem test_eor :
    run (start 0xFF#8 0x00#8 0x00#8 0xFD#8 0x04#8) [0x49#8, 0xFF#8] [] 0x07FF#16 =
      some (⟨0x00#8, 0x00#8, 0x00#8, 0xFD#8, 0x36#8, 0x0202#16, 2⟩, some 0xFF#8) := by decide

/-- V5: BIT $10 of C0 with A = 01. -/
theorem test_bit_all_set :
    run (start 0x01#8 0x00#8 0x00#8 0xFD#8 0x04#8) [0x24#8, 0x10#8] [(0x0010#16, 0xC0#8)] 0x07FF#16 =
      some (⟨0x01#8, 0x00#8, 0x00#8, 0xFD#8, 0xF6#8, 0x0202#16, 3⟩, some 0xFF#8) := by decide

/-- V5: BIT $10 of 41 with A = 41. -/
theorem test_bit_v_only :
    run (start 0x41#8 0x00#8 0x00#8 0xFD#8 0x04#8) [0x24#8, 0x10#8] [(0x0010#16, 0x41#8)] 0x07FF#16 =
      some (⟨0x41#8, 0x00#8, 0x00#8, 0xFD#8, 0x74#8, 0x0202#16, 3⟩, some 0xFF#8) := by decide

/-- V6: ASL A. -/
theorem test_asl_acc :
    run (start 0x81#8 0x00#8 0x00#8 0xFD#8 0x04#8) [0x0A#8] [] 0x07FF#16 =
      some (⟨0x02#8, 0x00#8, 0x00#8, 0xFD#8, 0x35#8, 0x0201#16, 2⟩, some 0xFF#8) := by decide

/-- V6: LSR A. -/
theorem test_lsr_acc :
    run (start 0x01#8 0x00#8 0x00#8 0xFD#8 0x04#8) [0x4A#8] [] 0x07FF#16 =
      some (⟨0x00#8, 0x00#8, 0x00#8, 0xFD#8, 0x37#8, 0x0201#16, 2⟩, some 0xFF#8) := by decide

/-- V6: ROL A with C = 1. -/
theorem test_rol_acc_carry_in :
    run (start 0x40#8 0x00#8 0x00#8 0xFD#8 0x05#8) [0x2A#8] [] 0x07FF#16 =
      some (⟨0x81#8, 0x00#8, 0x00#8, 0xFD#8, 0xB4#8, 0x0201#16, 2⟩, some 0xFF#8) := by decide

/-- V6: ROL A of 80. -/
theorem test_rol_acc_carry_out :
    run (start 0x80#8 0x00#8 0x00#8 0xFD#8 0x04#8) [0x2A#8] [] 0x07FF#16 =
      some (⟨0x00#8, 0x00#8, 0x00#8, 0xFD#8, 0x37#8, 0x0201#16, 2⟩, some 0xFF#8) := by decide

/-- V6: ROR A of 01 with C = 1. -/
theorem test_ror_acc_both :
    run (start 0x01#8 0x00#8 0x00#8 0xFD#8 0x05#8) [0x6A#8] [] 0x07FF#16 =
      some (⟨0x80#8, 0x00#8, 0x00#8, 0xFD#8, 0xB5#8, 0x0201#16, 2⟩, some 0xFF#8) := by decide

/-- V6: ROR A of 00 with C = 1. -/
theorem test_ror_acc_carry_in :
    run (start 0x00#8 0x00#8 0x00#8 0xFD#8 0x05#8) [0x6A#8] [] 0x07FF#16 =
      some (⟨0x80#8, 0x00#8, 0x00#8, 0xFD#8, 0xB4#8, 0x0201#16, 2⟩, some 0xFF#8) := by decide

/-- V6: ASL $10. -/
theorem test_asl_zp :
    run (start 0x00#8 0x00#8 0x00#8 0xFD#8 0x04#8) [0x06#8, 0x10#8] [(0x0010#16, 0xC0#8)] 0x0010#16 =
      some (⟨0x00#8, 0x00#8, 0x00#8, 0xFD#8, 0xB5#8, 0x0202#16, 5⟩, some 0x80#8) := by decide

/-- V6: LSR $10. -/
theorem test_lsr_zp :
    run (start 0x00#8 0x00#8 0x00#8 0xFD#8 0x04#8) [0x46#8, 0x10#8] [(0x0010#16, 0x03#8)] 0x0010#16 =
      some (⟨0x00#8, 0x00#8, 0x00#8, 0xFD#8, 0x35#8, 0x0202#16, 5⟩, some 0x01#8) := by decide

/-- V7: CMP #$10 of 10. -/
theorem test_cmp_equal :
    run (start 0x10#8 0x00#8 0x00#8 0xFD#8 0x04#8) [0xC9#8, 0x10#8] [] 0x07FF#16 =
      some (⟨0x10#8, 0x00#8, 0x00#8, 0xFD#8, 0x37#8, 0x0202#16, 2⟩, some 0xFF#8) := by decide

/-- V7: CMP #$90 of 10. -/
theorem test_cmp_unsigned :
    run (start 0x10#8 0x00#8 0x00#8 0xFD#8 0x04#8) [0xC9#8, 0x90#8] [] 0x07FF#16 =
      some (⟨0x10#8, 0x00#8, 0x00#8, 0xFD#8, 0xB4#8, 0x0202#16, 2⟩, some 0xFF#8) := by decide

/-- V7: CPX #$00 of 00. -/
theorem test_cpx :
    run (start 0x00#8 0x00#8 0x00#8 0xFD#8 0x04#8) [0xE0#8, 0x00#8] [] 0x07FF#16 =
      some (⟨0x00#8, 0x00#8, 0x00#8, 0xFD#8, 0x37#8, 0x0202#16, 2⟩, some 0xFF#8) := by decide

/-- V7: CPY #$80 of 7F. -/
theorem test_cpy :
    run (start 0x00#8 0x00#8 0x7F#8 0xFD#8 0x04#8) [0xC0#8, 0x80#8] [] 0x07FF#16 =
      some (⟨0x00#8, 0x00#8, 0x7F#8, 0xFD#8, 0xB4#8, 0x0202#16, 2⟩, some 0xFF#8) := by decide

/-- V8: BEQ with Z = 0. -/
theorem test_beq_not_taken :
    run (start 0x00#8 0x00#8 0x00#8 0xFD#8 0x04#8) [0xF0#8, 0x02#8] [] 0x07FF#16 =
      some (⟨0x00#8, 0x00#8, 0x00#8, 0xFD#8, 0x34#8, 0x0202#16, 2⟩, some 0xFF#8) := by decide

/-- V8: BEQ with Z = 1. -/
theorem test_beq_taken :
    run (start 0x00#8 0x00#8 0x00#8 0xFD#8 0x06#8) [0xF0#8, 0x02#8] [] 0x07FF#16 =
      some (⟨0x00#8, 0x00#8, 0x00#8, 0xFD#8, 0x36#8, 0x0204#16, 3⟩, some 0xFF#8) := by decide

/-- V8: BNE -3 at 0x0300. -/
theorem test_bne_back_a_page :
    run (start 0x00#8 0x00#8 0x00#8 0xFD#8 0x04#8 0x0300#16) [0xD0#8, 0xFD#8] [] 0x07FF#16 =
      some (⟨0x00#8, 0x00#8, 0x00#8, 0xFD#8, 0x34#8, 0x02FF#16, 4⟩, some 0xFF#8) := by decide

/-- V8: BMI +7F at 0x02F0. -/
theorem test_bmi_forward_a_page :
    run (start 0x00#8 0x00#8 0x00#8 0xFD#8 0x84#8 0x02F0#16) [0x30#8, 0x7F#8] [] 0x07FF#16 =
      some (⟨0x00#8, 0x00#8, 0x00#8, 0xFD#8, 0xB4#8, 0x0371#16, 4⟩, some 0xFF#8) := by decide

/-- V8: BPL -2. -/
theorem test_bpl_to_itself :
    run (start 0x00#8 0x00#8 0x00#8 0xFD#8 0x04#8) [0x10#8, 0xFE#8] [] 0x07FF#16 =
      some (⟨0x00#8, 0x00#8, 0x00#8, 0xFD#8, 0x34#8, 0x0200#16, 3⟩, some 0xFF#8) := by decide

/-- R353: BCC with C = 0. -/
theorem test_bcc_taken :
    run (start 0x00#8 0x00#8 0x00#8 0xFD#8 0x04#8) [0x90#8, 0x02#8] [] 0x07FF#16 =
      some (⟨0x00#8, 0x00#8, 0x00#8, 0xFD#8, 0x34#8, 0x0204#16, 3⟩, some 0xFF#8) := by decide

/-- R354: BCS with C = 0. -/
theorem test_bcs_not_taken :
    run (start 0x00#8 0x00#8 0x00#8 0xFD#8 0x04#8) [0xB0#8, 0x02#8] [] 0x07FF#16 =
      some (⟨0x00#8, 0x00#8, 0x00#8, 0xFD#8, 0x34#8, 0x0202#16, 2⟩, some 0xFF#8) := by decide

/-- R357: BVS with V = 1. -/
theorem test_bvs_taken :
    run (start 0x00#8 0x00#8 0x00#8 0xFD#8 0x44#8) [0x70#8, 0x02#8] [] 0x07FF#16 =
      some (⟨0x00#8, 0x00#8, 0x00#8, 0xFD#8, 0x74#8, 0x0204#16, 3⟩, some 0xFF#8) := by decide

/-- R358: BVC with V = 1. -/
theorem test_bvc_not_taken :
    run (start 0x00#8 0x00#8 0x00#8 0xFD#8 0x44#8) [0x50#8, 0x02#8] [] 0x07FF#16 =
      some (⟨0x00#8, 0x00#8, 0x00#8, 0xFD#8, 0x74#8, 0x0202#16, 2⟩, some 0xFF#8) := by decide

/-- V8: JMP $1234. -/
theorem test_jmp_abs :
    run (start 0x00#8 0x00#8 0x00#8 0xFD#8 0x04#8) [0x4C#8, 0x34#8, 0x12#8] [] 0x07FF#16 =
      some (⟨0x00#8, 0x00#8, 0x00#8, 0xFD#8, 0x34#8, 0x1234#16, 3⟩, some 0xFF#8) := by decide

/-- V8: JSR $0300 at 0x0200, low byte pushed second. -/
theorem test_jsr_pushes_low :
    run (start 0x00#8 0x00#8 0x00#8 0xFD#8 0x04#8) [0x20#8, 0x00#8, 0x03#8] [] 0x01FC#16 =
      some (⟨0x00#8, 0x00#8, 0x00#8, 0xFB#8, 0x34#8, 0x0300#16, 6⟩, some 0x02#8) := by decide

/-- R362: JSR $0500 at 0x01FD with S = FF pushes 01 over its own high byte, and reads that. -/
theorem test_jsr_high_byte_is_read_last :
    run (start 0x00#8 0x00#8 0x00#8 0xFF#8 0x04#8 0x01FD#16) [0x20#8, 0x00#8, 0x05#8] [] 0x01FF#16 =
      some (⟨0x00#8, 0x00#8, 0x00#8, 0xFD#8, 0x34#8, 0x0100#16, 6⟩, some 0x01#8) := by decide

/-- V8: RTS. -/
theorem test_rts :
    run (start 0x00#8 0x00#8 0x00#8 0xFB#8 0x04#8) [0x60#8] [(0x01FC#16, 0x02#8), (0x01FD#16, 0x03#8)] 0x07FF#16 =
      some (⟨0x00#8, 0x00#8, 0x00#8, 0xFD#8, 0x34#8, 0x0303#16, 6⟩, some 0xFF#8) := by decide

/-- V9: PHA with S = 00. -/
theorem test_pha_wraps :
    run (start 0x42#8 0x00#8 0x00#8 0x00#8 0x04#8) [0x48#8] [] 0x0100#16 =
      some (⟨0x42#8, 0x00#8, 0x00#8, 0xFF#8, 0x34#8, 0x0201#16, 3⟩, some 0x42#8) := by decide

/-- V9: PHP. -/
theorem test_php_sets_bit_4 :
    run (start 0x00#8 0x00#8 0x00#8 0xFD#8 0x81#8) [0x08#8] [] 0x01FD#16 =
      some (⟨0x00#8, 0x00#8, 0x00#8, 0xFC#8, 0xB1#8, 0x0201#16, 3⟩, some 0xB1#8) := by decide

/-- V9: PLA with S = FF. -/
theorem test_pla_wraps :
    run (start 0x00#8 0x00#8 0x00#8 0xFF#8 0x04#8) [0x68#8] [(0x0100#16, 0x80#8)] 0x07FF#16 =
      some (⟨0x80#8, 0x00#8, 0x00#8, 0x00#8, 0xB4#8, 0x0201#16, 4⟩, some 0xFF#8) := by decide

/-- V9: PLP of 00. -/
theorem test_plp_clears_all :
    run (start 0x00#8 0x00#8 0x00#8 0xFC#8 0x04#8) [0x28#8] [(0x01FD#16, 0x00#8)] 0x07FF#16 =
      some (⟨0x00#8, 0x00#8, 0x00#8, 0xFD#8, 0x30#8, 0x0201#16, 4⟩, some 0xFF#8) := by decide

/-- V9: PLP of FF. -/
theorem test_plp_sets_all :
    run (start 0x00#8 0x00#8 0x00#8 0xFC#8 0x04#8) [0x28#8] [(0x01FD#16, 0xFF#8)] 0x07FF#16 =
      some (⟨0x00#8, 0x00#8, 0x00#8, 0xFD#8, 0xFF#8, 0x0201#16, 4⟩, some 0xFF#8) := by decide

/-- V9: SED. -/
theorem test_sed :
    run (start 0x00#8 0x00#8 0x00#8 0xFD#8 0x04#8) [0xF8#8] [] 0x07FF#16 =
      some (⟨0x00#8, 0x00#8, 0x00#8, 0xFD#8, 0x3C#8, 0x0201#16, 2⟩, some 0xFF#8) := by decide

/-- V9: CLV. -/
theorem test_clv :
    run (start 0x00#8 0x00#8 0x00#8 0xFD#8 0x44#8) [0xB8#8] [] 0x07FF#16 =
      some (⟨0x00#8, 0x00#8, 0x00#8, 0xFD#8, 0x34#8, 0x0201#16, 2⟩, some 0xFF#8) := by decide

/-- V9: CLI. -/
theorem test_cli :
    run (start 0x00#8 0x00#8 0x00#8 0xFD#8 0x04#8) [0x58#8] [] 0x07FF#16 =
      some (⟨0x00#8, 0x00#8, 0x00#8, 0xFD#8, 0x30#8, 0x0201#16, 2⟩, some 0xFF#8) := by decide

/-- V9: BRK at 0x0200, the image pushed with bit 4 set. -/
theorem test_brk_pushes_the_image :
    run (start 0x00#8 0x00#8 0x00#8 0xFD#8 0x03#8) [0x00#8, 0xEA#8] [] 0x01FB#16 =
      some (⟨0x00#8, 0x00#8, 0x00#8, 0xFA#8, 0x37#8, 0x0000#16, 7⟩, some 0x33#8) := by decide

/-- V9: BRK at 0x0200 pushes 0x0202. -/
theorem test_brk_pushes_the_return_address :
    run (start 0x00#8 0x00#8 0x00#8 0xFD#8 0x03#8) [0x00#8, 0xEA#8] [] 0x01FC#16 =
      some (⟨0x00#8, 0x00#8, 0x00#8, 0xFA#8, 0x37#8, 0x0000#16, 7⟩, some 0x02#8) := by decide

/-- V9: RTI. -/
theorem test_rti :
    run (start 0x00#8 0x00#8 0x00#8 0xFA#8 0x04#8) [0x40#8] [(0x01FB#16, 0xC3#8), (0x01FC#16, 0x34#8), (0x01FD#16, 0x12#8)] 0x07FF#16 =
      some (⟨0x00#8, 0x00#8, 0x00#8, 0xFD#8, 0xF3#8, 0x1234#16, 6⟩, some 0xFF#8) := by decide

/-- V9: NOP. -/
theorem test_nop :
    run (start 0x00#8 0x00#8 0x00#8 0xFD#8 0x04#8) [0xEA#8] [] 0x07FF#16 =
      some (⟨0x00#8, 0x00#8, 0x00#8, 0xFD#8, 0x34#8, 0x0201#16, 2⟩, some 0xFF#8) := by decide

/-- V10: LAX $10. -/
theorem test_lax :
    run (start 0x00#8 0x00#8 0x00#8 0xFD#8 0x04#8) [0xA7#8, 0x10#8] [(0x0010#16, 0x80#8)] 0x07FF#16 =
      some (⟨0x80#8, 0x80#8, 0x00#8, 0xFD#8, 0xB4#8, 0x0202#16, 3⟩, some 0xFF#8) := by decide

/-- V10: SAX $10. -/
theorem test_sax :
    run (start 0xF0#8 0x3C#8 0x00#8 0xFD#8 0x04#8) [0x87#8, 0x10#8] [] 0x0010#16 =
      some (⟨0xF0#8, 0x3C#8, 0x00#8, 0xFD#8, 0x34#8, 0x0202#16, 3⟩, some 0x30#8) := by decide

/-- V10: DCP $10. -/
theorem test_dcp :
    run (start 0x05#8 0x00#8 0x00#8 0xFD#8 0x04#8) [0xC7#8, 0x10#8] [(0x0010#16, 0x06#8)] 0x0010#16 =
      some (⟨0x05#8, 0x00#8, 0x00#8, 0xFD#8, 0x37#8, 0x0202#16, 5⟩, some 0x05#8) := by decide

/-- V10: ISB $10. -/
theorem test_isb :
    run (start 0x05#8 0x00#8 0x00#8 0xFD#8 0x05#8) [0xE7#8, 0x10#8] [(0x0010#16, 0x02#8)] 0x0010#16 =
      some (⟨0x02#8, 0x00#8, 0x00#8, 0xFD#8, 0x35#8, 0x0202#16, 5⟩, some 0x03#8) := by decide

/-- V10: SLO $10. -/
theorem test_slo :
    run (start 0x01#8 0x00#8 0x00#8 0xFD#8 0x04#8) [0x07#8, 0x10#8] [(0x0010#16, 0x81#8)] 0x0010#16 =
      some (⟨0x03#8, 0x00#8, 0x00#8, 0xFD#8, 0x35#8, 0x0202#16, 5⟩, some 0x02#8) := by decide

/-- V10: RLA $10. -/
theorem test_rla :
    run (start 0xFF#8 0x00#8 0x00#8 0xFD#8 0x05#8) [0x27#8, 0x10#8] [(0x0010#16, 0x80#8)] 0x0010#16 =
      some (⟨0x01#8, 0x00#8, 0x00#8, 0xFD#8, 0x35#8, 0x0202#16, 5⟩, some 0x01#8) := by decide

/-- V10: SRE $10. -/
theorem test_sre :
    run (start 0xFF#8 0x00#8 0x00#8 0xFD#8 0x04#8) [0x47#8, 0x10#8] [(0x0010#16, 0x03#8)] 0x0010#16 =
      some (⟨0xFE#8, 0x00#8, 0x00#8, 0xFD#8, 0xB5#8, 0x0202#16, 5⟩, some 0x01#8) := by decide

/-- V10: RRA $10. -/
theorem test_rra :
    run (start 0x10#8 0x00#8 0x00#8 0xFD#8 0x05#8) [0x67#8, 0x10#8] [(0x0010#16, 0x02#8)] 0x0010#16 =
      some (⟨0x91#8, 0x00#8, 0x00#8, 0xFD#8, 0xB4#8, 0x0202#16, 5⟩, some 0x81#8) := by decide

/-- V10: the unofficial SBC #$01. -/
theorem test_sbc_eb :
    run (start 0x03#8 0x00#8 0x00#8 0xFD#8 0x05#8) [0xEB#8, 0x01#8] [] 0x07FF#16 =
      some (⟨0x02#8, 0x00#8, 0x00#8, 0xFD#8, 0x35#8, 0x0202#16, 2⟩, some 0xFF#8) := by decide

/-- V10: the unofficial NOP #$00. -/
theorem test_nop_imm :
    run (start 0x00#8 0x00#8 0x00#8 0xFD#8 0x04#8) [0x80#8, 0x00#8] [] 0x07FF#16 =
      some (⟨0x00#8, 0x00#8, 0x00#8, 0xFD#8, 0x34#8, 0x0202#16, 2⟩, some 0xFF#8) := by decide

/-- V10: ISB $0300,Y. -/
theorem test_isb_aby :
    run (start 0x00#8 0x00#8 0xFF#8 0xFD#8 0x05#8) [0xFB#8, 0x00#8, 0x03#8] [(0x03FF#16, 0x00#8)] 0x03FF#16 =
      some (⟨0xFF#8, 0x00#8, 0xFF#8, 0xFD#8, 0xB4#8, 0x0203#16, 7⟩, some 0x01#8) := by decide

/-- V10: DCP ($10),Y. -/
theorem test_dcp_izy :
    run (start 0x00#8 0x00#8 0x00#8 0xFD#8 0x04#8) [0xD3#8, 0x10#8] [(0x0010#16, 0x00#8), (0x0011#16, 0x03#8), (0x0300#16, 0x01#8)] 0x0300#16 =
      some (⟨0x00#8, 0x00#8, 0x00#8, 0xFD#8, 0x37#8, 0x0202#16, 8⟩, some 0x00#8) := by decide

/-- V10: the undefined opcode 02. -/
theorem test_undefined :
    run (start 0x11#8 0x00#8 0x00#8 0xFD#8 0x04#8) [0x02#8] [] 0x07FF#16 =
      some (⟨0x11#8, 0x00#8, 0x00#8, 0xFD#8, 0x34#8, 0x0201#16, 2⟩, some 0xFF#8) := by decide

/-- V2: STY $2000 writes PPUCTRL (R534). -/
theorem test_sty_ppuctrl :
    (match step (code (start 0#8 0#8 0x80#8 0xFD#8 0x04#8) 0x0200#16 [0x8C#8, 0x00#8, 0x20#8]) with
      | .next t => some (t.ppu.ctrl, 100 - t.remainingCycles)
      | .fault _ => none
      | .refused _ => none) = some (0x80#8, 4) := by decide

/-- V10: the diagnostic of the undefined opcode 02 at 0x0200 (R442). -/
theorem test_undefined_event :
    (match step (code (start 0x11#8 0#8 0#8 0xFD#8 0x04#8) 0x0200#16 [0x02#8]) with
      | .next t => some t.events
      | .fault _ => none
      | .refused _ => none) = some [.undefinedOpcode 0x02#8 0x0200#16] := by decide

/-- R441: under the fault policy the same opcode stops the step. -/
theorem test_undefined_fault :
    (match step (code { (start 0x11#8 0#8 0#8 0xFD#8 0x04#8) with params := { undefinedPolicy := .fault } }
        0x0200#16 [0x02#8]) with
      | .next _ => none
      | .fault f => some f
      | .refused _ => none) = some (.undefinedOpcode 0x02#8 0x0200#16) := by decide

/-- R420, R440: LAX A7, left out of UNOFFICIAL_SET, is a no-op of its one byte and two ticks with its diagnostic. -/
theorem test_removed_opcode_is_undefined :
    (match step (code { (start 0x11#8 0#8 0#8 0xFD#8 0x04#8) with params := { unofficialSet := [0xA3#8] } } 0x0200#16
        [0xA7#8, 0x10#8]) with
      | .next t => some (t.a, t.x, t.pc, t.remainingCycles, t.events)
      | .fault _ => none
      | .refused _ => none) =
      some (0x11#8, 0x00#8, 0x0201#16, 98, [.undefinedOpcode 0xA7#8 0x0200#16]) := by decide

/-- R470: budgets are added until the counter is positive. -/
theorem test_budgets_opened :
    [1, 0, -29780, -29781].map (fun n => ({ State.reset with remainingCycles := n } : State).opened.remainingCycles) =
      [1, 29781, 1, 29781] := by decide

/-- W1: ADC and then SBC of the same operand, C held consistent: A = 7F, M = 01. -/
theorem test_adc_sbc_round_trip :
    addWithCarry 0x7F#8 0x01#8 false = ⟨0x80#8, false, true⟩ ∧
      subWithCarry 0x80#8 0x01#8 true = ⟨0x7F#8, true, true⟩ := by decide

/-! ### Interrupts: V11 -/

/-- V11: an IRQ entry at 0x8123, the image pushed with bit 4 clear. -/
theorem test_irq_entry :
    run { (start 0#8 0#8 0#8 0xFD#8 0x01#8 0x8123#16) with irqLine := true } []
      [(0xFFFE#16, 0x00#8), (0xFFFF#16, 0x90#8)] 0x01FB#16 =
      some (⟨0#8, 0#8, 0#8, 0xFA#8, 0x35#8, 0x9000#16, 7⟩, some 0x21#8) := by decide

/-- V11: an NMI entry at 0x8123 pushes the address's high byte first. -/
theorem test_nmi_entry :
    run { (start 0#8 0#8 0#8 0xFD#8 0x84#8 0x8123#16) with nmiPending := true } []
      [(0xFFFA#16, 0x00#8), (0xFFFB#16, 0xA0#8)] 0x01FD#16 =
      some (⟨0#8, 0#8, 0#8, 0xFA#8, 0xB4#8, 0xA000#16, 7⟩, some 0x81#8) := by decide

/-- V11: an IRQ while masked is not entered; the next instruction runs. -/
theorem test_irq_masked :
    run { (start 0#8 0#8 0#8 0xFD#8 0x04#8) with irqLine := true } [0xEA#8] [] 0x07FF#16 =
      some (⟨0#8, 0#8, 0#8, 0xFD#8, 0x34#8, 0x0201#16, 2⟩, some 0xFF#8) := by decide

/-- V11: with both pending the NMI is entered, at its vector, and its latch is cleared. -/
theorem test_nmi_before_irq :
    (match step (seed { (start 0#8 0#8 0#8 0xFD#8 0x00#8) with irqLine := true, nmiPending := true }
        [(0xFFFB#16, 0xA0#8), (0xFFFF#16, 0x90#8)]) with
      | .next t => some (t.pc, t.nmiPending, t.irqDue)
      | .fault _ => none
      | .refused _ => none) = some (0xA000#16, false, false) := by decide

/-! ### Reset: V12 -/

/-- V12, R673: power() of a machine with the blank cartridge answers State.reset. -/
theorem test_power_gives_reset :
    power { State.reset with
      a := 0x55#8, sp := 0#8, pc := 0x1234#16, ram := [(3, 7#8)], nmiPending := true, remainingCycles := 100
      draws := 0 } = .next State.reset := by rfl

/-- V12: reset() after P2's end state: S = FA, I = 1, the pc from the vector, 7 ticks, 21 dots. -/
theorem test_warm_reset :
    (let t := warmReset (seed { (start 0x37#8 0#8 0#8 0xFD#8 0x01#8) with remainingCycles := 0 }
        [(0x0001#16, 0x37#8), (0xFFFD#16, 0x80#8)]);
      (t.a, t.sp, t.p.pack true, t.pc, t.remainingCycles, t.ppu.dot)) =
      (0x37#8, 0xFA#8, 0x35#8, 0x8000#16, -7, 42) := by decide +kernel

/-- V12: a second reset() takes S to F7. -/
theorem test_warm_reset_twice : (warmReset (warmReset (start 0#8 0#8 0#8 0xFD#8 0#8))).sp = 0xF7#8 := by decide

/-- R490: with no cartridge nothing runs. -/
theorem test_no_cartridge :
    step { State.reset with cartLoaded := false } = .refused .noCartridge ∧
      power { State.reset with cartLoaded := false } = .refused .noCartridge ∧
      runFrame { State.reset with cartLoaded := false } = .refused .noCartridge :=
  ⟨rfl, rfl, rfl⟩

/-- R462: a run_frame of a budget of two ticks: one NOP, and the return with the counter at 0. -/
theorem test_run_frame_stops_at_zero :
    (match runFrame (code { (start 0#8 0#8 0#8 0xFD#8 0x04#8) with remainingCycles := -29779 } 0x0200#16 [0xEA#8]) with
      | .next t => some (t.pc, t.remainingCycles)
      | .fault _ => none
      | .refused _ => none) = some (0x0201#16, 0) := by decide

/-! ### The bus -/

/-- The edges of the CPU's regions (R90, R625). -/
theorem test_bus_edges :
    targetOf 0x1FFF#16 = .ram 0x7FF ∧ targetOf 0x0800#16 = .ram 0 ∧ targetOf 0x2000#16 = .ppu 0 ∧
      targetOf 0x3FFF#16 = .ppu 7 ∧ targetOf 0x4000#16 = .apu ∧ targetOf 0x4014#16 = .dma ∧
      targetOf 0x4015#16 = .apu ∧ targetOf 0x4016#16 = .controller 0 ∧ targetOf 0x4017#16 = .controller 1 ∧
      targetOf 0x4018#16 = .undriven ∧ targetOf 0x5FFF#16 = .undriven ∧ targetOf 0x6000#16 = .prgRam 0 ∧
      targetOf 0x7FFF#16 = .prgRam 0x1FFF ∧ targetOf 0x8000#16 = .prgRom ∧ targetOf 0xFFFF#16 = .prgRom := by decide

/-- A byte written at 0x0005 is read at 0x1805, and the write of RAM_POISON takes its entry out (R91). -/
theorem test_ram_mirror_and_canonical_form :
    (busRead 0x1805#16 (busWrite 0x0005#16 0x42#8 State.reset)).1 = 0x42#8 ∧
      (busWrite 0x1005#16 0xFF#8 (busWrite 0x0005#16 0x42#8 State.reset)).ram = [] := by decide

/-- R95: with OAM_DMA_ENABLED a write of 2 to 0x4014 moves page 2 into OAM, the last byte to the last entry. -/
theorem test_sprite_dma_last_copies :
    (let t := dmaCopy 0x02#8 2 (seed { State.reset with ppu := { Ppu.reset with oamAddr := 0xFE#8 } }
        [(0x02FE#16, 0x11#8), (0x02FF#16, 0x22#8)]);
      (t.ppu.oam, t.ppu.oamAddr, t.remainingCycles)) = ([(254, 0x11#8), (255, 0x22#8)], 0x00#8, -11) := by decide +kernel

/-! ### PPU registers, scrolling and address space: V13, W4 -/

/-- V13: 03 to 0x2000 sets t's nametable bits. -/
theorem test_ppuctrl_sets_t : (busWrite 0x2000#16 0x03#8 State.reset).ppu.t = 0x0C00#15 := by decide

/-- V13: 7D then 5E to 0x2005. -/
theorem test_ppuscroll_pair :
    (let s := busWrite 0x2005#16 0x7D#8 State.reset
      let t := busWrite 0x2005#16 0x5E#8 s;
      (s.ppu.t, s.ppu.fineX, s.ppu.w, t.ppu.t, t.ppu.w)) = (0x000F#15, 5#3, true, 0x616F#15, false) := by decide

/-- V13: 3F then 10 to 0x2006. -/
theorem test_ppuaddr_pair :
    (let t := busWrite 0x2006#16 0x10#8 (busWrite 0x2006#16 0x3F#8 State.reset);
      (t.ppu.t, t.ppu.v, t.ppu.w)) = (0x3F10#15, 0x3F10#15, false) := by decide

/-- V13: a read of 0x2002 clears vblank and the write toggle. -/
theorem test_ppustatus_read :
    (let r := busRead 0x2002#16 { State.reset with ppu := { Ppu.reset with vblank := true, w := true } };
      (r.2.ppu.vblank, r.2.ppu.w, r.2.draws)) = (false, false, 2) := by decide

/-- V13: reads of 0x2007 below the palette are one behind, and v steps by 1. -/
theorem test_ppudata_read_buffer :
    (let s := { State.reset with ppu := { Ppu.reset with v := 0x2000#15, ciram := [(0, 0xAB#8), (1, 0xCD#8)] } }
      let r := busRead 0x2007#16 s
      let q := busRead 0x2007#16 r.2;
      (r.1, q.1, q.2.ppu.v)) = (0x00#8, 0xAB#8, 0x2002#15) := by decide

/-- V13: a read of 0x2007 at v = 0x3F00 answers the palette at once and refills the buffer from below it. -/
theorem test_ppudata_read_palette :
    (let s := { State.reset with
        ppu := { Ppu.reset with v := 0x3F00#15, palette := [(0, 0x0F#6)], ciram := [(0x700, 0x77#8)] } }
      let r := busRead 0x2007#16 s;
      (r.2.ppu.readBuf, r.2.ppu.v, ppuRead s.mapper s.ppu 0x3F00#14)) = (0x77#8, 0x3F01#15, 0x0F#8) := by decide

/-- V13: a write of 0x2007 with the increment bit set steps v by 32. -/
theorem test_ppudata_write_steps_32 :
    (let t := busWrite 0x2007#16 0x55#8 { State.reset with ppu := { Ppu.reset with v := 0x2000#15, ctrl := 0x04#8 } };
      (t.ppu.ciram, t.ppu.v)) = ([(0, 0x55#8)], 0x2020#15) := by decide

/-- V13: the palette aliases. -/
theorem test_palette_aliases :
    [0x3F00#14, 0x3F10#14, 0x3F14#14, 0x3F11#14, 0x3F1C#14, 0x3F20#14, 0x3F3F#14].map palIndex =
      [0x00, 0x00, 0x04, 0x11, 0x0C, 0x00, 0x1F] := by decide

/-- W4: the nametable index of each address in the four modes. -/
theorem test_nametable_indexes :
    [0x005, 0x405, 0x805, 0xC05, 0xBFF].map (ntIndex .vertical) = [0x005, 0x405, 0x005, 0x405, 0x3FF] ∧
      [0x005, 0x405, 0x805, 0xC05, 0xBFF].map (ntIndex .horizontal) = [0x005, 0x005, 0x405, 0x405, 0x7FF] ∧
      [0x005, 0x405, 0x805, 0xC05, 0xBFF].map (ntIndex .singleLower) = [0x005, 0x005, 0x005, 0x005, 0x3FF] ∧
      [0x005, 0x405, 0x805, 0xC05, 0xBFF].map (ntIndex .singleUpper) = [0x405, 0x405, 0x405, 0x405, 0x7FF] := by decide

/-- V13: IncCoarseX. -/
theorem test_inc_coarse_x : [0x0005#15, 0x001F#15, 0x041F#15].map incCoarseX = [0x0006#15, 0x0400#15, 0x0000#15] := by
  decide

/-- V13: IncY. -/
theorem test_inc_y :
    [0x0000#15, 0x7000#15, 0x73A0#15, 0x73E0#15, 0x7BA0#15, 0x7065#15].map incY =
      [0x1000#15, 0x0020#15, 0x0800#15, 0x0000#15, 0x0000#15, 0x0085#15] := by decide

/-- V13: the two copies of t = 616F. -/
theorem test_scroll_copies :
    copyHorizontal 0x0000#15 0x616F#15 = 0x000F#15 ∧ copyVertical 0x0000#15 0x616F#15 = 0x6160#15 := by decide

/-- V13: the address and the shift of the quadrant fetch. -/
theorem test_quadrant_fetch :
    [0x0000#15, 0x0002#15, 0x0040#15, 0x0063#15, 0x0FBF#15, 0x0625#15].map (fun v => (atAddress v, atShift v)) =
      [(0x23C0#14, 0), (0x23C0#14, 2), (0x23C0#14, 4), (0x23C0#14, 6), (0x2FFF#14, 2), (0x27E1#14, 0)] := by decide

/-- R566: dot (241, 1) sets vblank and raises NMI when PPUCTRL bit 7 is set. -/
theorem test_vblank_dot :
    (let t := ({ State.reset with ppu := { Ppu.reset with scanline := 241, dot := 1, ctrl := 0x80#8 } }).dotStep;
      (t.ppu.vblank, t.nmiPending, t.ppu.dot)) = (true, true, 2) := by decide

/-- R560, R563: the dot of (261, 340) wraps to (0, 0) with its event. -/
theorem test_frame_wrap :
    (let t := ({ State.reset with ppu := { Ppu.reset with scanline := 261, dot := 340 } }).dotStep;
      (t.ppu.scanline, t.ppu.dot, t.events.length)) = (0, 0, 1) := by decide

/-- The OAM of 64 sprites whose first `n` have Y = 20, the others Y = F0. -/
def oamOf (n : Nat) : Memory Byte := (List.range 64).map (fun k => (4 * k, if k < n then 20#8 else 0xF0#8))

/-- Nine sprites with Y = 20 overflow on line 20; eight do not (R582, R583). -/
theorem test_nine_sprites_overflow :
    (let p := ({ Ppu.reset with scanline := 20, oam := oamOf 9 }).evaluateSprites;
      (p.sprOverflow, p.secCount, p.secHasZero)) = (true, 8, true) ∧
    (let p := ({ Ppu.reset with scanline := 27, oam := oamOf 8 }).evaluateSprites;
      (p.sprOverflow, p.secCount)) = (false, 8) ∧
    (({ Ppu.reset with scanline := 28, oam := oamOf 9 }).evaluateSprites).secCount = 0 := by decide

/-- A PPU with an opaque sprite 0 and an opaque background at every column near the right edge. -/
def nearEdge : Ppu :=
  { Ppu.reset with
    scanline := 30, mask := 0x1E#8, bgLo := 0xFFFF#16, spCount := 1, spZero := true
    slots := { x := 250#8, attr := 0x20#8, lo := 0xFF#8, hi := 0x00#8 } :: List.replicate 7 SpriteSlot.zero }

/-- V13: the sprite-0 hit at column 254, and none at 255 (R587). -/
theorem test_sprite_zero_hit_columns : (nearEdge.output 254).spr0hit = true ∧ (nearEdge.output 255).spr0hit = false := by
  decide

/-- V13: a sprite behind the background is shown over a transparent one alone (R590). -/
theorem test_pixel_priority :
    nearEdge.pixelIndex 252 = 1 ∧ ({ nearEdge with bgLo := 0#16 } : Ppu).pixelIndex 252 = 0x11 ∧
      ({ nearEdge with bgLo := 0#16, spCount := 0 } : Ppu).pixelIndex 252 = 0 := by decide

/-- R533, R586: the left eight columns show no sprite and no background when their bits are clear. -/
theorem test_left_columns :
    ({ nearEdge with mask := 0x18#8 } : Ppu).backgroundPixel 7 = (0, 0) ∧
      ({ nearEdge with mask := 0x18#8 } : Ppu).backgroundPixel 8 = (1, 0) ∧
      ({ nearEdge with mask := 0x18#8 } : Ppu).spritesShown 7 = false := by decide

/-- R584: the row of a 16-line sprite's second tile, from its own table. -/
theorem test_sprite_address :
    ({ Ppu.reset with ctrl := 0x20#8 } : Ppu).spriteAddress 0x43#8 9 = 0x1431 ∧
      ({ Ppu.reset with ctrl := 0x08#8 } : Ppu).spriteAddress 0x43#8 5 = 0x1435 := by decide

/-! ### Mappers and the loader: V14, W7 -/

/-- An MMC1 with eight PRG units and the registers given. -/
def mmc1 (control prgBank : BitVec 5) : Mapper :=
  { Mapper.blank with kind := .mmc1, prgUnits := 8, control := control, prgBank := prgBank }

/-- V14: NROM of 16 KiB reads BFFC and FFFC from the same byte. -/
theorem test_nrom_mirror :
    Mapper.blank.prgOffset 0xBFFC#16 = 0x3FFC ∧ Mapper.blank.prgOffset 0xFFFC#16 = 0x3FFC ∧
      Mapper.blank.prgWrite 0x8000#16 0x55#8 = Mapper.blank := by decide

/-- V14: a write with bit 7 set in mid-sequence. -/
theorem test_mmc1_shifter_reset :
    (let m := Mapper.prgWrite { mmc1 0#5 0#5 with sr := 0x03#5, count := 2 } 0x8000#16 0x80#8;
      (m.sr, m.count, m.control)) = (0#5, 0, 0x0C#5) := by decide

/-- W7, R633: 00, 01, 00, 00, 00 to E000 give PRG bank 2 and leave the mirroring. -/
theorem test_mmc1_bank_sequence :
    (let m := [0#8, 1#8, 0#8, 0#8, 0#8].foldl (fun m d => Mapper.prgWrite m 0xE000#16 d) (mmc1 0x0C#5 0#5);
      (m.prgBank, m.control, m.mirroring)) = (2#5, 0x0C#5, .horizontal) := by decide

/-- V14: 00, 00, 01, 00, 00 to 8000 give control 04 and single-screen lower. -/
theorem test_mmc1_control_sequence :
    (let m := [0#8, 0#8, 1#8, 0#8, 0#8].foldl (fun m d => Mapper.prgWrite m 0x8000#16 d) (mmc1 0x0C#5 0#5);
      (m.control, m.mirroring)) = (0x04#5, .singleLower) := by decide

/-- V14: the banks that 8000 and C000 read in PRG modes 0 and 3. -/
theorem test_mmc1_prg_banks :
    (mmc1 0x00#5 0x05#5).prgBankAt 0x8000#16 = 4 ∧ (mmc1 0x00#5 0x05#5).prgBankAt 0xC000#16 = 5 ∧
      (mmc1 0x0C#5 0x0A#5).prgBankAt 0x8000#16 = 2 ∧ (mmc1 0x0C#5 0x0A#5).prgBankAt 0xC000#16 = 7 := by decide

/-- V14: CHR mode 1 with chr0 = 03 and chr1 = 01. -/
theorem test_mmc1_chr_banks :
    (let m := { mmc1 0x10#5 0#5 with chrUnits := 4, chr0 := 3#5, chr1 := 1#5 };
      (m.chrOffset 0x0000#14, m.chrOffset 0x1000#14)) = (0x3000, 0x1000) := by decide

/-- A header of sixteen bytes with its bytes 4 to 8. -/
def header (b4 b5 b6 b7 b8 : Byte) : List Byte :=
  [0x4E#8, 0x45#8, 0x53#8, 0x1A#8, b4, b5, b6, b7, b8, 0#8, 0#8, 0#8, 0#8, 0#8, 0#8, 0#8]

/-- V14, R662: 08 00 10 00 00 is an MMC1 with 128 KiB PRG, 8 KiB CHR RAM, horizontal. -/
theorem test_header_of_mmc1 :
    (let h := header 0x08#8 0x00#8 0x10#8 0x00#8 0x00#8
      let m := buildMapper .mmc1 h
      (mapperKindOf (mapperId h), m.prgUnits, m.chrUnits, m.chrIsRam, m.mirroring)) =
      (some .mmc1, 8, 1, true, .horizontal) := by decide

/-- V14, R661: the load errors. -/
theorem test_load_errors :
    load none State.reset = .refused (.fatalLoad .unreadable) ∧
      load (some (header 0x01#8 0#8 0#8 0#8 0#8)) State.reset = .refused (.fatalLoad .truncated) ∧
      load (some (header 0x00#8 0#8 0x40#8 0#8 0#8)) State.reset = .refused (.fatalLoad .unsupportedMapper) ∧
      load (some (header 0x00#8 0#8 0x01#8 0#8 0#8)) State.reset = .refused (.fatalLoad .noPrg) :=
  ⟨rfl, rfl, rfl, rfl⟩


/-! ### Witnesses: the hypotheses of the obligations are met

One theorem for each obligation that has hypotheses, with values at the bounds of its clauses. -/

/-- A state with bytes in every memory and an inner budget. -/
def busy : State :=
  { seed (start 0x81#8 0xFF#8 0x01#8 0x00#8 0xC3#8 0x0210#16)
      [(0x0001#16, 0x37#8), (0x0100#16, 0x12#8), (0x6000#16, 0x5A#8), (0xFFFF#16, 0x90#8)] with
    ppu := { Ppu.reset with oam := [(0, 0x14#8), (255, 0x37#8)], ciram := [(0x7FF, 0xAB#8)], palette := [(0x1F, 0x0F#6)] } }

/-- The MMC1 machine: eight PRG units. -/
def serialMachine : State := { busy with mapper := mmc1 0x0C#5 0#5 }

theorem witness_EncodeOfDecode :
    decode [0x2C#8, 0x02#8, 0x20#8, 0xEA#8] = .ok (.bitAbs 0x2002#16, [0xEA#8]) ∧
      decode [0x20#8, 0x34#8, 0x12#8] = .ok (.jsr 0x34#8, [0x12#8]) ∧ decode [0x00#8] = .ok (.brk, []) :=
  ⟨rfl, rfl, rfl⟩

theorem witness_StepRunsDecodedInstruction :
    busy.cartLoaded = true ∧ busy.nmiPending = false ∧ busy.irqDue = false ∧
      decode (fetchedBytes (code busy 0x0210#16 [0x7D#8, 0x34#8, 0x12#8]).opened) = .ok (.adcAbx 0x1234#16, []) ∧
      HasHandler busy.params (.adcAbx 0x1234#16) :=
  ⟨rfl, rfl, rfl, rfl, fun op h => by cases h; rfl⟩

/-- The bytes of an instruction stand at the top of memory and wrap to its bottom. -/
theorem witness_StepRunsBytesInMemory :
    let s := code { State.reset with pc := 0xFFFF#16 } 0xFFFF#16 [0x7D#8, 0x34#8, 0x12#8]
    s.cartLoaded = true ∧ s.nmiPending = false ∧ s.irqDue = false ∧ HasHandler s.params (.adcAbx 0x1234#16) ∧
      ∀ (k : Nat) (b : Byte), (encode (.adcAbx 0x1234#16))[k]? = some b →
        s.peek (s.pc + BitVec.ofNat 16 k) = some b := by
  refine ⟨rfl, rfl, rfl, fun op h => by cases h; rfl, fun k b h => ?_⟩
  match k, h with
  | 0, h => cases h; rfl
  | 1, h => cases h; rfl
  | 2, h => cases h; rfl
  | k + 3, h => cases h

theorem witness_PowerOnValues : busy.cartLoaded = true ∧ ({ busy with cartLoaded := false } : State).cartLoaded = false :=
  ⟨rfl, rfl⟩

theorem witness_StepKeepsTheInvariant :
    (code busy 0x0210#16 [0xEA#8]).inv = true ∧ ∃ t, step (code busy 0x0210#16 [0xEA#8]) = .next t :=
  ⟨by decide, _, rfl⟩

theorem witness_RomAndSettingsNeverChange :
    (∃ t, step State.reset = .next t) ∧ State.reset.mapper.kind = .nrom ∧
      ∃ t, step { State.reset with mapper := { Mapper.blank with chrIsRam := false } } = .next t :=
  ⟨⟨_, rfl⟩, rfl, _, rfl⟩

theorem witness_OnlyUndefinedOpcodesCanStop :
    State.reset.cartLoaded = true ∧ State.reset.params.undefinedPolicy = .nop ∧
      (∃ f, step (code { State.reset with params := { undefinedPolicy := .fault } } 0#16 [0x02#8]) = .fault f) ∧
      (∃ f, step (code { State.reset with params := { undefinedPolicy := .fault, unofficialSet := [] } } 0#16 [0xA7#8]) =
        .fault f) ∧
      ({ State.reset with cartLoaded := false } : State).cartLoaded = false :=
  ⟨rfl, rfl, ⟨_, rfl⟩, ⟨_, rfl⟩, rfl⟩

/-- A budget of one tick before the call, and none left after the last one of 29,781. -/
theorem witness_FrameRunEndsWithItsBudget :
    State.reset.cartLoaded = true ∧ State.reset.params.undefinedPolicy = .nop ∧
      State.reset.params.oamDmaEnabled = false ∧
      0 < ({ State.reset with remainingCycles := -29780 } : State).remainingCycles + 29781 := by decide

/-- An NMI with S = 0, so that the pushes wrap in page 1, and an IRQ. -/
theorem witness_InterruptEntrySavesAndVectors :
    let s := { busy with nmiPending := true }
    let t := { busy with irqLine := true }
    s.inv = true ∧ s.cartLoaded = true ∧ s.nmiPending = true ∧ t.inv = true ∧ t.cartLoaded = true ∧ t.irqLine = true ∧
      t.p.i = false ∧ t.nmiPending = false := by decide

theorem witness_InterruptPriority :
    let s := { busy with irqLine := true }
    let u := { State.reset with irqLine := true }
    ({ s with nmiPending := true } : State).nmiPending = true ∧ s.cartLoaded = true ∧ s.nmiPending = false ∧
      s.irqLine = true ∧ s.p.i = false ∧ u.cartLoaded = true ∧ u.nmiPending = false ∧ u.p.i = true ∧
      busy.irqLine = false := by decide

theorem witness_ReturnFromInterruptUndoesEntry : busy.inv = true ∧ busy.sp = 0#8 ∧ State.reset.inv = true := by decide

/-- The first and the last address of the mirrored region. -/
theorem witness_RamIsMirroredFourTimes :
    busy.inv = true ∧ (0x1FFF#16 : Addr).toNat < 0x2000 ∧ (0x07FF#16 : Addr).toNat < 0x2000 ∧
      (0x1FFF#16 : Addr).toNat % 0x800 = (0x07FF#16 : Addr).toNat % 0x800 ∧
      (0x0000#16 : Addr).toNat % 0x800 ≠ (0x1FFF#16 : Addr).toNat % 0x800 := by decide

/-- The first and the last address of each clause. -/
theorem witness_IoWindowAndUnassignedAddresses :
    [0x4000#16, 0x4013#16, 0x4015#16].all (fun a => decide (0x4000 ≤ a.toNat ∧ a.toNat < 0x4016 ∧ a.toNat ≠ 0x4014)) ∧
      (0x4014#16 : Addr).toNat = 0x4014 ∧ State.reset.params.oamDmaEnabled = false ∧
      [0x4016#16, 0x5FFF#16].all (fun a => decide (0x4016 ≤ a.toNat ∧ a.toNat < 0x6000)) ∧
      [0x4017#16, 0x5FFF#16].all (fun a => decide (0x4017 ≤ a.toNat ∧ a.toNat < 0x6000)) := by decide

theorem witness_SpriteDmaCopiesAPage :
    let s := { busy with params := { oamDmaEnabled := true } }
    s.params.oamDmaEnabled = true ∧ (0x00#8 : Byte).toNat < 0x20 ∧ (0x1F#8 : Byte).toNat < 0x20 := by decide

theorem witness_CartridgeRamAndRomAccesses :
    [0x6000#16, 0x7FFF#16].all (fun a => decide (0x6000 ≤ a.toNat ∧ a.toNat < 0x8000)) ∧
      [0x8000#16, 0xFFFF#16].all (fun a => decide (0x8000 ≤ a.toNat)) ∧ busy.mapper.kind = .nrom ∧
      serialMachine.mapper.kind = .mmc1 := by decide

theorem witness_EveryInstructionTakesItsTicks :
    busy.params.oamDmaEnabled = false ∧ busy.params.undefinedPolicy = .nop := by decide

/-- With S = 0, X = FF and Y = 1: the indexes and the stack wrap. -/
theorem witness_StoresWriteTheirAddress : busy.inv = true ∧ busy.x = 0xFF#8 ∧ busy.y = 0x01#8 := by decide

theorem witness_IncAndDecModifyMemory : busy.inv = true ∧ serialMachine.inv = true := by decide

theorem witness_ShiftsAndRotates : busy.inv = true ∧ busy.p.c = true ∧ State.reset.inv = true ∧ State.reset.p.c = false := by
  decide

theorem witness_JsrPushesAndRtsReturns : busy.inv = true ∧ busy.sp = 0#8 ∧ State.reset.inv = true := by decide

theorem witness_StackInstructions : busy.inv = true ∧ ({ busy with sp := 0xFF#8 } : State).inv = true := by decide

theorem witness_BreakEntersTheIrqVector : busy.inv = true ∧ busy.params.brkReturnOffset = 2#16 := by decide

theorem witness_CombinedReadModifyWrites : busy.inv = true ∧ serialMachine.inv = true := by decide

/-- Both policies, and a fetched opcode that the set leaves out. -/
theorem witness_UndefinedOpcodesFollowTheirPolicy :
    let s := code { State.reset with params := { unofficialSet := [0xA3#8] } } 0#16 [0xA7#8]
    let t := code { State.reset with params := { undefinedPolicy := .fault, unofficialSet := [] } } 0#16 [0xEB#8]
    s.cartLoaded = true ∧ s.nmiPending = false ∧ s.irqDue = false ∧ s.params.undefinedPolicy = .nop ∧
      s.params.removes (fetchByte s.opened).1 = true ∧ t.cartLoaded = true ∧ t.nmiPending = false ∧ t.irqDue = false ∧
      t.params.undefinedPolicy = .fault ∧ t.params.removes (fetchByte t.opened).1 = true :=
  ⟨rfl, rfl, rfl, rfl, rfl, rfl, rfl, rfl, rfl, rfl⟩

/-- The first and the last mirror of the registers written. -/
theorem witness_PpuRegisterWrites :
    [0x2000#16, 0x2001#16, 0x2002#16, 0x2003#16, 0x2004#16, 0x3FF8#16, 0x3FF9#16, 0x3FFA#16, 0x3FFB#16, 0x3FFC#16].all
        (fun a => decide (0x2000 ≤ a.toNat ∧ a.toNat < 0x4000)) ∧
      [0x2000#16, 0x2001#16, 0x2002#16, 0x2003#16, 0x2004#16].map (fun a => a.toNat % 8) = [0, 1, 2, 3, 4] ∧
      [0x3FF8#16, 0x3FF9#16, 0x3FFA#16, 0x3FFB#16, 0x3FFC#16].map (fun a => a.toNat % 8) = [0, 1, 2, 3, 4] := by decide

/-- The first and the last mirror of the registers read. -/
theorem witness_PpuRegisterReads :
    [0x2002#16, 0x3FFA#16].all (fun a => decide (0x2000 ≤ a.toNat ∧ a.toNat < 0x4000 ∧ a.toNat % 8 = 2)) ∧
      [0x2004#16, 0x3FFC#16].all
        (fun a => decide (0x2000 ≤ a.toNat ∧ a.toNat < 0x4000 ∧ a.toNat % 8 = 4)) ∧
      [0x2000#16, 0x2001#16, 0x2003#16, 0x2005#16, 0x3FFE#16].all
        (fun a => decide (0x2000 ≤ a.toNat ∧ a.toNat < 0x4000 ∧ a.toNat % 8 ∈ [0, 1, 3, 5, 6])) := by decide

/-- The first and the last mirror of the two registers. -/
theorem witness_ScrollAndAddressWritePairs :
    State.reset.ppu.w = false ∧ AtPpu 5 0x2005#16 ∧ AtPpu 5 0x3FFD#16 ∧ AtPpu 6 0x2006#16 ∧ AtPpu 6 0x3FFE#16 := by
  unfold AtPpu
  decide

theorem witness_PpuDataWriteStoresAndSteps : AtPpu 7 0x2007#16 ∧ AtPpu 7 0x3FFF#16 := by
  unfold AtPpu
  decide

/-- The last address below the palette, the first and the last of the palette. -/
theorem witness_PpuDataReadIsBuffered :
    let address := fun (v : Scroll) => (BitVec.ofNat 14 v.toNat : VAddr).toNat
    AtPpu 7 0x2007#16 ∧ AtPpu 7 0x3FFF#16 ∧ address 0x3EFF#15 < 0x3F00 ∧ 0x3F00 ≤ address 0x3F00#15 ∧
      0x3F00 ≤ address 0x7FFF#15 := by
  unfold AtPpu
  decide

/-- The bounds of the nametable window, a pair of mirrors in each mode, and a pair of palette aliases. -/
theorem witness_PpuAddressFolding :
    let window := fun (a : VAddr) => 0x2000 ≤ a.toNat ∧ a.toNat < 0x3F00
    window 0x2000#14 ∧ window 0x3EFF#14 ∧ window 0x2800#14 ∧ window 0x2400#14 ∧
      ntIndex .vertical ((0x2000#14 : VAddr).toNat &&& 0x0FFF) = ntIndex .vertical ((0x2800#14 : VAddr).toNat &&& 0x0FFF) ∧
      ntIndex .horizontal ((0x2000#14 : VAddr).toNat &&& 0x0FFF) = ntIndex .horizontal ((0x2400#14 : VAddr).toNat &&& 0x0FFF) ∧
      0x3F00 ≤ (0x3F00#14 : VAddr).toNat ∧ 0x3F00 ≤ (0x3FF0#14 : VAddr).toNat ∧ palIndex 0x3F00#14 = palIndex 0x3FF0#14 ∧
      (0x2000#15 : Scroll).setWidth 14 = 0x2000#14 ∧ (0x2EFF#15 : Scroll).setWidth 14 = 0x2EFF#14 ∧
      (0x2EFF#14 : VAddr).toNat < 0x2F00 ∧ (0x2FFF#15 : Scroll).setWidth 14 = 0x2FFF#14 ∧
      (0x2FFF#14 : VAddr).toNat < 0x3000 ∧ State.reset.mapper.mirroring = .horizontal ∧
      ({ Mapper.blank with mirroring := .vertical } : Mapper).mirroring = .vertical := by decide

/-- The two dots, the dots beside them, and flags that stand there. -/
theorem witness_VblankAndNmiAtTheirDots :
    let at' := fun (line dot : Nat) => { Ppu.reset with scanline := line, dot := dot }
    ((at' 241 1).scanline = 241 ∧ (at' 241 1).dot = 1) ∧ ((at' 261 1).scanline = 261 ∧ (at' 261 1).dot = 1) ∧
      (at' 241 0).dot ≠ 1 ∧ (at' 261 2).dot ≠ 1 ∧ (at' 240 1).scanline ≠ 241 ∧ (at' 240 1).scanline ≠ 261 ∧
      ({ at' 261 2 with spr0hit := true } : Ppu).spr0hit = true ∧
      ({ at' 261 2 with sprOverflow := true } : Ppu).sprOverflow = true := by decide

theorem witness_FrameOfDotsReturnsOnce :
    State.reset.ppu.scanline ≤ 261 ∧ State.reset.ppu.dot ≤ 340 ∧
      ({ Ppu.reset with scanline := 261, dot := 340 } : Ppu).scanline ≤ 261 := by decide

theorem witness_RenderingOffHoldsThePipeline :
    Ppu.reset.mask &&& 0x18#8 = 0#8 ∧ ({ Ppu.reset with mask := 0xE7#8 } : Ppu).mask &&& 0x18#8 = 0#8 := by decide

/-- With rendering enabled: the first and the last pixel of a line, another column of the line, dot 257, and the line
after the last visible one. -/
theorem witness_OnePixelPerVisibleDot :
    let may := fun (p : Ppu) (y x : Nat) => p.rendering = true ∧ p.scanline = y ∧ y < 240 ∧ p.dot = x + 1 ∧ x < 256
    let at' := fun (line dot : Nat) => { Ppu.reset with mask := 0x18#8, scanline := line, dot := dot }
    may (at' 0 1) 0 0 ∧ may (at' 239 256) 239 255 ∧
      ¬ may (at' 0 1) 0 1 ∧ ¬ may (at' 239 257) 239 256 ∧ ¬ may (at' 240 1) 240 0 ∧ ¬ may Ppu.reset 0 20 := by decide

/-- The first and the last dot of each fetch, of the shifts and of the reloads, on the first and the pre-render line. -/
theorem witness_BackgroundPipelineAtItsDots :
    let on := fun (p : Ppu) => p.rendering = true ∧ (p.scanline < 240 ∨ p.scanline = 261)
    let fetches := fun (d r : Nat) => (1 ≤ d ∧ d ≤ 256 ∨ 321 ≤ d ∧ d ≤ 336) ∧ d % 8 = r
    let shifts := fun (d : Nat) => 2 ≤ d ∧ d ≤ 257 ∨ 322 ≤ d ∧ d ≤ 337
    let reloads := fun (d : Nat) => d % 8 = 1 ∧ (9 ≤ d ∧ d ≤ 257 ∨ d = 329 ∨ d = 337)
    on { Ppu.reset with mask := 0x08#8 } ∧ on { Ppu.reset with mask := 0x10#8, scanline := 261 } ∧ ¬ on Ppu.reset ∧
      [1, 249, 321, 329].all (fun d => decide (fetches d 1)) ∧ [3, 251, 323, 331].all (fun d => decide (fetches d 3)) ∧
      [5, 253, 325, 333].all (fun d => decide (fetches d 5)) ∧ [7, 255, 327, 335].all (fun d => decide (fetches d 7)) ∧
      [2, 257, 322, 337].all (fun d => decide (shifts d)) ∧ [9, 257, 329, 337].all (fun d => decide (reloads d)) ∧
      [0, 257, 320, 337].all (fun d => decide (¬ fetches d 1 ∧ ¬ fetches d 7)) ∧
      [1, 258, 321, 338].all (fun d => decide (¬ shifts d)) ∧ [1, 321].all (fun d => decide (¬ reloads d)) ∧
      0 ∉ [1, 3, 5, 7] ∧ 8 ∉ [1, 3, 5, 7] := by decide

/-- Line 20 with nine sprites in range, and slots of secondary OAM with a row on it; the three stages with no and with
eight slots filled, the dot of the clearing, and positions of no stage. -/
theorem witness_SpriteStagesAtTheirDots :
    let at' := fun (line dot n : Nat) =>
      { Ppu.reset with
        mask := 0x18#8, scanline := line, dot := dot, secCount := n, oam := oamOf 9
        sec := (List.range 8).map (fun k => (4 * k, 20#8)) }
    let stage := fun (p : Ppu) (d : Nat) => p.rendering = true ∧ p.scanline < 240 ∧ p.dot = d
    let clears := fun (p : Ppu) => p.scanline = 261 ∧ p.dot = 1
    [0, 8].all (fun n => decide ((at' 20 64 n).secCount ≤ 8 ∧ stage (at' 20 64 n) 64 ∧ stage (at' 20 256 n) 256 ∧
        stage (at' 20 320 n) 320 ∧ clears (at' 261 1 n))) ∧
      (inRange (at' 20 256 0))[7]? = some 7 ∧ ((at' 20 320 8).step Mapper.blank).slots[7]?.isSome = true ∧
      ((at' 20 320 8).secAt 28).toNat ≤ 20 ∧ 20 < ((at' 20 320 8).secAt 28).toNat + 8 ∧
      [64, 256, 320].all (fun d => decide (¬ stage (at' 240 d 0) d ∧ ¬ clears (at' 240 d 0))) := by decide

/-- A dot that raises the hit at the last column where it may, and one at which a hit stands. -/
theorem witness_SpriteZeroHitExactlyWhereItMay :
    ((({ nearEdge with dot := 255 } : Ppu).step Mapper.blank).spr0hit = true) ∧
      ({ Ppu.reset with spr0hit := true, scanline := 261, dot := 2 } : Ppu).spr0hit = true := by decide

/-- The bounds of each register's addresses, the largest data byte of a serial write and the smallest of a reset. -/
theorem witness_SerialWritesSetOneRegister :
    serialMachine.mapper.kind = .mmc1 ∧ serialMachine.mapper.count = 0 ∧
      [0x8000#16, 0x9FFF#16, 0xA000#16, 0xBFFF#16, 0xC000#16, 0xDFFF#16, 0xE000#16, 0xFFFF#16].all
        (fun a => decide (0x8000 ≤ a.toNat)) ∧
      [0x00#8, 0x01#8, 0x7E#8, 0x7F#8].all (fun d => decide (d.toNat < 128)) ∧ 128 ≤ (0x80#8 : Byte).toNat := by decide

theorem witness_ProgramBanksAreRead :
    0x8000 ≤ (0x8000#16 : Addr).toNat ∧ 0x8000 ≤ (0xFFFF#16 : Addr).toNat ∧ 1 ≤ busy.mapper.prgUnits ∧
      1 ≤ serialMachine.mapper.prgUnits := by decide

/-- Two addresses of one cell: both halves of a window that the MMC1 maps to one bank. -/
theorem witness_CharacterBanksAreRead :
    let m := { mmc1 0x10#5 0#5 with chr0 := 1#5, chr1 := 1#5 }
    (0x0000#14 : VAddr).toNat < 0x2000 ∧ (0x1FFF#14 : VAddr).toNat < 0x2000 ∧ (0x0FFF#14 : VAddr).toNat < 0x2000 ∧
      1 ≤ m.chrUnits ∧ m.chrOffset 0x0FFF#14 = m.chrOffset 0x1FFF#14 := by decide

/-- The hypothesis of LoaderRefusesAndBuilds. -/
def BadFile (file : List Byte) : Prop :=
  let h := fun (k : Nat) => (file.getD k 0#8).toNat
  let id := h 7 / 16 * 16 + h 6 / 16
  file.length < 16 + 16384 * h 4 + 8192 * h 5 ∨ id ≠ 0 ∧ id ≠ 1 ∨ h 4 = 0

/-- A header that says one PRG unit wants 16,384 bytes. -/
theorem badFile_one_unit (l : List Byte) : BadFile (header 0x01#8 0#8 0#8 0#8 0#8 ++ l) ↔ l.length < 16384 := by
  have h : (header 0x01#8 0#8 0#8 0#8 0#8 ++ l).length = 16 + l.length := by rw [List.length_append]; rfl
  have h4 : ((header 0x01#8 0#8 0#8 0#8 0#8 ++ l).getD 4 0#8).toNat = 1 := rfl
  have h5 : ((header 0x01#8 0#8 0#8 0#8 0#8 ++ l).getD 5 0#8).toNat = 0 := rfl
  have h6 : ((header 0x01#8 0#8 0#8 0#8 0#8 ++ l).getD 6 0#8).toNat = 0 := rfl
  have h7 : ((header 0x01#8 0#8 0#8 0#8 0#8 ++ l).getD 7 0#8).toNat = 0 := rfl
  simp only [BadFile, h, h4, h5, h6, h7]
  omega

/-- A file one byte short, and one that is just long enough. -/
theorem witness_LoaderRefusesAndBuilds :
    BadFile (header 0x01#8 0#8 0#8 0#8 0#8 ++ List.replicate 16383 0#8) ∧
      ¬ BadFile (header 0x01#8 0#8 0#8 0#8 0#8 ++ List.replicate 16384 0#8) := by
  rw [badFile_one_unit, badFile_one_unit, List.length_replicate, List.length_replicate]
  decide

end Sys2Proof.Tests
end

section
/-!
PROOFS. What exec can do, said once: each instruction has one of a few shapes, and a relation that the ticks and the bus
accesses keep is kept by every step. With it: what no step changes.
-/

namespace Sys2Proof.Machine

/-! ### The shapes of an instruction -/

/-- `t` is `s` with nothing but the CPU's registers written. -/
def OnlyRegisters (s t : State) : Prop :=
  t = { s with a := t.a, x := t.x, y := t.y, sp := t.sp, pc := t.pc, p := t.p }

/-- What exec can answer in `s`: ticks and a register effect, one of the operation classes, a branch, one of the
operations on the stack or the pc, or what an undefined opcode answers. -/
inductive ExecShape (s : State) : Result → Prop where
  | registers {t : State} (n : Nat) (h : OnlyRegisters (ticks n s) t) : ExecShape s (.next t)
  | branch (taken : Bool) (d : Byte) : ExecShape s (.next (branch taken d s))
  | read (f : Byte → State → State) (o : Operand) (hf : ∀ m u, OnlyRegisters u (f m u)) :
      ExecShape s (.next (readOp f o s))
  | write (f : State → Byte) (o : Operand) : ExecShape s (.next (writeOp f o s))
  | rmw (f : Byte → State → Byte × State) (g : Byte → State → State) (o : Operand)
      (hf : ∀ m u, OnlyRegisters u (f m u).2) (hg : ∀ m u, OnlyRegisters u (g m u)) :
      ExecShape s (.next (rmwOp f g o s))
  | push (v : Byte) : ExecShape s (.next (push v (tick s)))
  | pull {t : State} (h : OnlyRegisters (pull (tick (tick s))).2 t) : ExecShape s (.next t)
  | jmpInd (a : Addr) : ExecShape s (execJmpInd a s)
  | jsr (lo : Byte) : ExecShape s (.next (jsr lo s))
  | rts : ExecShape s (.next (rts s))
  | brk : ExecShape s (.next (brk s))
  | rti : ExecShape s (.next (returnFromInterrupt s))
  | undefined (op : Byte) : ExecShape s (undefinedOpcode op s)

/-- Every instruction has one of the shapes. -/
theorem exec_shape (i : Instr) (s : State) : ExecShape s (exec i s) := by
  cases i with
  | oraImm | andImm | eorImm | adcImm | nop80 | nop82 | nop89 | ldyImm | ldxImm | ldaImm | cpyImm | nopC2
  | cmpImm | cpxImm | nopE2 | sbcImm | sbcImmEB | jmpAbs =>
    exact .registers 0 rfl
  | clc | nop1A | sec | nop3A | cli | nop5A | sei | nop7A | dey | txa | tya | txs | tay | tax | clv | tsx | iny
  | dex | cld | nopDA | inx | nop | sed | nopFA =>
    exact .registers 1 rfl
  | aslAcc | rolAcc | lsrAcc | rorAcc =>
    exact .registers 1 rfl
  | bpl | bmi | bvc | bvs | bcc | bcs | bne | beq =>
    exact .branch ..
  | oraIzx | nop04 | oraZp | nop0C | oraAbs | oraIzy | nop14 | oraZpx | oraAby | nop1C | oraAbx | andIzx
  | bitZp | andZp | bitAbs | andAbs | andIzy | nop34 | andZpx | andAby | nop3C | andAbx | eorIzx | nop44
  | eorZp | eorAbs | eorIzy | nop54 | eorZpx | eorAby | nop5C | eorAbx | adcIzx | nop64 | adcZp | adcAbs
  | adcIzy | nop74 | adcZpx | adcAby | nop7C | adcAbx | ldaIzx | laxIzx | ldyZp | ldaZp | ldxZp | laxZp
  | ldyAbs | ldaAbs | ldxAbs | laxAbs | ldaIzy | laxIzy | ldyZpx | ldaZpx | ldxZpy | laxZpy | ldaAby | ldyAbx
  | ldaAbx | ldxAby | laxAby | cmpIzx | cpyZp | cmpZp | cpyAbs | cmpAbs | cmpIzy | nopD4 | cmpZpx | cmpAby
  | nopDC | cmpAbx | sbcIzx | cpxZp | sbcZp | cpxAbs | sbcAbs | sbcIzy | nopF4 | sbcZpx | sbcAby | nopFC
  | sbcAbx =>
    exact .read _ _ fun _ _ => rfl
  | staIzx | saxIzx | styZp | staZp | stxZp | saxZp | styAbs | staAbs | stxAbs | saxAbs | staIzy | styZpx
  | staZpx | stxZpy | saxZpy | staAby | staAbx =>
    exact .write ..
  | sloIzx | aslZp | sloZp | aslAbs | sloAbs | sloIzy | aslZpx | sloZpx | sloAby | aslAbx | sloAbx | rlaIzx
  | rolZp | rlaZp | rolAbs | rlaAbs | rlaIzy | rolZpx | rlaZpx | rlaAby | rolAbx | rlaAbx | sreIzx | lsrZp
  | sreZp | lsrAbs | sreAbs | sreIzy | lsrZpx | sreZpx | sreAby | lsrAbx | sreAbx | rraIzx | rorZp | rraZp
  | rorAbs | rraAbs | rraIzy | rorZpx | rraZpx | rraAby | rorAbx | rraAbx | dcpIzx | decZp | dcpZp | decAbs
  | dcpAbs | dcpIzy | decZpx | dcpZpx | dcpAby | decAbx | dcpAbx | isbIzx | incZp | isbZp | incAbs | isbAbs
  | isbIzy | incZpx | isbZpx | isbAby | incAbx | isbAbx =>
    exact .rmw _ _ _ (fun _ _ => rfl) (fun _ _ => rfl)
  | pha | php =>
    exact .push _
  | pla | plp =>
    exact .pull rfl
  | jmpInd a => exact .jmpInd a
  | jsr lo => exact .jsr lo
  | rts => exact .rts
  | brk => exact .brk
  | rti => exact .rti
  | undef02 | undef0B | undef12 | undef22 | undef2B | undef32 | undef42 | undef4B | undef52 | undef62 | undef6B
  | undef72 | undef8B | undef92 | undef93 | undef9B | undef9C | undef9E | undef9F | undefAB | undefB2 | undefBB
  | undefCB | undefD2 | undefF2 =>
    exact .undefined _
/-! ### A relation that every access keeps is kept by every step -/

/-- The parts of the machine that outlast an instruction, but for the NMI latch and the counters, stand in `t` as in
`s`. -/
structure SameDevices (s t : State) : Prop where
  ram : t.ram = s.ram
  ppu : t.ppu = s.ppu
  mapper : t.mapper = s.mapper
  params : t.params = s.params
  irqLine : t.irqLine = s.irqLine
  cartLoaded : t.cartLoaded = s.cartLoaded

theorem OnlyRegisters.sameDevices {s t : State} (h : OnlyRegisters s t) : SameDevices s t := by
  unfold OnlyRegisters at h
  constructor <;> rw [h]

/-- A relation between the states before and after that composes and is kept by a tick, by either bus access, and by
any write of registers, latches and counters. -/
structure StepRelation (R : State → State → Prop) : Prop where
  trans : ∀ {s t u}, R s t → R t u → R s u
  sameDevices : ∀ {s t}, SameDevices s t → R s t
  tick : ∀ s, R s (tick s)
  busRead : ∀ a s, R s (busRead a s).2
  busWrite : ∀ a v s, R s (busWrite a v s)

namespace StepRelation

variable {R : State → State → Prop} (hR : StepRelation R) {s t : State}
include hR

theorem refl (s : State) : R s s := hR.sameDevices ⟨rfl, rfl, rfl, rfl, rfl, rfl⟩

theorem registers (h : OnlyRegisters s t) : R s t := hR.sameDevices h.sameDevices

/-- A register effect after what `R` relates. -/
theorem andRegisters {u : State} (h : R s t) (h' : OnlyRegisters t u) : R s u := hR.trans h (hR.registers h')

theorem setSp (v : Byte) (s : State) : R s (s.setSp v) := hR.registers rfl
theorem setP (p : Flags) (s : State) : R s (s.setP p) := hR.registers rfl
theorem setPc (a : Addr) (s : State) : R s (s.setPc a) := hR.registers rfl
theorem setNmi (v : Bool) (s : State) : R s (s.setNmi v) := hR.sameDevices ⟨rfl, rfl, rfl, rfl, rfl, rfl⟩
theorem emit (e : Event) (s : State) : R s (s.emit e) := hR.sameDevices ⟨rfl, rfl, rfl, rfl, rfl, rfl⟩

theorem ticks (n : Nat) (s : State) : R s (ticks n s) := by
  induction n generalizing s with
  | zero => exact hR.refl s
  | succ n ih => exact hR.trans (hR.tick s) (ih _)

theorem memRead (a : Addr) (s : State) : R s (memRead a s).2 := hR.trans (hR.tick s) (hR.busRead a _)

theorem memWrite (a : Addr) (v : Byte) (s : State) : R s (memWrite a v s) := hR.trans (hR.tick s) (hR.busWrite a v _)

theorem read16 (a b : Addr) (s : State) : R s (read16 a b s).2 := hR.trans (hR.memRead a s) (hR.memRead b _)

theorem push (v : Byte) (s : State) : R s (push v s) := hR.trans (hR.memWrite _ v s) (hR.setSp _ _)

theorem pull (s : State) : R s (pull s).2 := hR.trans (hR.setSp (s.sp + 1#8) s) (hR.memRead _ _)

theorem pushWord (a : Addr) (s : State) : R s (pushWord a s) := hR.trans (hR.push _ s) (hR.push _ _)

theorem pullWord (s : State) : R s (pullWord s).2 := hR.trans (hR.pull s) (hR.pull _)

theorem enterVector (ret : Addr) (b : Bool) (vec : Addr) (s : State) : R s (enterVector ret b vec s) :=
  hR.trans (hR.trans (hR.trans (hR.trans (hR.pushWord ret s) (hR.push _ _)) (hR.setP _ _)) (hR.read16 vec _ _))
    (hR.setPc _ _)

theorem interrupt (k : Interrupt) (s : State) : R s (interrupt k s) :=
  hR.trans (hR.ticks 2 s) (hR.enterVector _ _ _ _)

theorem returnFromInterrupt (s : State) : R s (returnFromInterrupt s) :=
  hR.trans (hR.trans (hR.trans (hR.trans (hR.ticks 2 s) (hR.pull _)) (hR.setP _ _)) (hR.pullWord _)) (hR.setPc _ _)

theorem effectiveAddress (c : OpClass) (o : Operand) (s : State) : R s (effectiveAddress c o s).2 := by
  obtain ⟨n, hn⟩ := effectiveAddress_ticks c o s
  rw [hn]
  exact hR.ticks n s

/-- The effective address, and a read there. -/
theorem operand (c : OpClass) (o : Operand) (s : State) :
    R s (Machine.memRead (Machine.effectiveAddress c o s).1 (Machine.effectiveAddress c o s).2).2 :=
  hR.trans (hR.effectiveAddress c o s) (hR.memRead _ _)

theorem readOp {f : Byte → State → State} (hf : ∀ m u, OnlyRegisters u (f m u)) (o : Operand) (s : State) :
    R s (readOp f o s) := hR.andRegisters (hR.operand .read o s) (hf _ _)

theorem writeOp (f : State → Byte) (o : Operand) (s : State) : R s (writeOp f o s) :=
  hR.trans (hR.effectiveAddress .write o s) (hR.memWrite _ _ _)

theorem rmwOp {f : Byte → State → Byte × State} {g : Byte → State → State} (hf : ∀ m u, OnlyRegisters u (f m u).2)
    (hg : ∀ m u, OnlyRegisters u (g m u)) (o : Operand) (s : State) : R s (rmwOp f g o s) :=
  hR.andRegisters
    (hR.trans (hR.andRegisters (hR.trans (hR.operand .rmw o s) (hR.tick _)) (hf _ _)) (hR.memWrite _ _ _)) (hg _ _)

theorem branch (taken : Bool) (d : Byte) (s : State) : R s (branch taken d s) := by
  unfold Machine.branch
  dsimp only
  split
  · split
    · exact hR.andRegisters (hR.ticks 1 s) rfl
    · exact hR.andRegisters (hR.ticks 2 s) rfl
  · exact hR.refl s

theorem jsr (lo : Byte) (s : State) : R s (jsr lo s) :=
  hR.andRegisters (hR.trans (hR.trans (hR.tick s) (hR.pushWord _ _)) (hR.memRead _ _)) rfl

theorem rts (s : State) : R s (rts s) :=
  hR.andRegisters (hR.trans (hR.trans (hR.ticks 2 s) (hR.pullWord _)) (hR.tick _)) rfl

theorem brk (s : State) : R s (brk s) :=
  hR.trans (hR.trans (hR.memRead s.pc s) (hR.setPc ((Machine.memRead s.pc s).2.pc + 1#16) _))
    (hR.enterVector _ true 0xFFFE#16 _)

theorem undefinedOpcode {op : Byte} (h : undefinedOpcode op s = .next t) : R s t := by
  unfold Machine.undefinedOpcode at h
  split at h
  · cases h
    exact hR.trans (hR.tick s) (hR.emit _ _)
  · cases h

theorem execShape {r : Result} (h : ExecShape s r) (hr : r = .next t) : R s t := by
  cases h with
  | registers n h => cases hr; exact hR.andRegisters (hR.ticks n s) h
  | branch => cases hr; exact hR.branch ..
  | read f o hf => cases hr; exact hR.readOp hf o s
  | write => cases hr; exact hR.writeOp ..
  | rmw f g o hf hg => cases hr; exact hR.rmwOp hf hg o s
  | push v => cases hr; exact hR.trans (hR.tick s) (hR.push v _)
  | pull h => cases hr; exact hR.andRegisters (hR.trans (hR.ticks 2 s) (hR.pull _)) h
  | jmpInd a => cases hr; exact hR.andRegisters (hR.read16 a _ s) rfl
  | jsr lo => cases hr; exact hR.jsr lo s
  | rts => cases hr; exact hR.rts s
  | brk => cases hr; exact hR.brk s
  | rti => cases hr; exact hR.returnFromInterrupt s
  | undefined op => exact hR.undefinedOpcode hr

/-- Every instruction keeps the relation. -/
theorem exec {i : Instr} (h : exec i s = .next t) : R s t := hR.execShape (exec_shape i s) h

theorem fetchByte (s : State) : R s (fetchByte s).2 := hR.andRegisters (hR.memRead s.pc s) rfl

theorem fetchInstr (s : State) : R s (fetchInstr s).2 := by
  unfold Machine.fetchInstr
  dsimp only
  split
  · exact hR.fetchByte s
  · exact hR.trans (hR.fetchByte s) (hR.fetchByte _)
  · exact hR.trans (hR.trans (hR.fetchByte s) (hR.fetchByte _)) (hR.fetchByte _)

theorem opened (s : State) : R s s.opened :=
  hR.sameDevices ⟨s.opened_ram, s.opened_ppu, s.opened_mapper, s.opened_params, s.opened_irqLine, s.opened_cartLoaded⟩

/-- Every step that answers a next state keeps the relation. -/
theorem step (h : step s = .next t) : R s t := by
  obtain ⟨-, ⟨-, rfl⟩ | ⟨-, -, rfl⟩ | hu | he⟩ := step_next_cases h
  · exact hR.trans (hR.trans (hR.opened s) (hR.setNmi false _)) (hR.interrupt .nmi _)
  · exact hR.trans (hR.opened s) (hR.interrupt .irq _)
  · exact hR.trans (hR.trans (hR.opened s) (hR.fetchByte _)) (hR.undefinedOpcode hu)
  · exact hR.trans (hR.trans (hR.opened s) (hR.fetchInstr _)) (hR.exec he)

end StepRelation

/-! ### The cartridge and the settings -/

/-- What no write changes of a cartridge: the PRG image, the variant, the sizes, CHR when it is ROM, and on NROM
every register (R620, R626 to R628, R630). -/
structure Mapper.Kept (m n : Mapper) : Prop where
  prg : n.prg = m.prg
  kind : n.kind = m.kind
  prgUnits : n.prgUnits = m.prgUnits
  chrUnits : n.chrUnits = m.chrUnits
  chrIsRam : n.chrIsRam = m.chrIsRam
  prgRamUnits : n.prgRamUnits = m.prgRamUnits
  chrRom : m.chrIsRam = false → n.chr = m.chr
  nrom : m.kind = .nrom → n = { m with prgRam := n.prgRam, chr := n.chr }

theorem Mapper.Kept.refl (m : Mapper) : Mapper.Kept m m := ⟨rfl, rfl, rfl, rfl, rfl, rfl, fun _ => rfl, fun _ => rfl⟩

theorem Mapper.Kept.trans {m n o : Mapper} (h : Mapper.Kept m n) (h' : Mapper.Kept n o) : Mapper.Kept m o where
  prg := h'.prg.trans h.prg
  kind := h'.kind.trans h.kind
  prgUnits := h'.prgUnits.trans h.prgUnits
  chrUnits := h'.chrUnits.trans h.chrUnits
  chrIsRam := h'.chrIsRam.trans h.chrIsRam
  prgRamUnits := h'.prgRamUnits.trans h.prgRamUnits
  chrRom hr := (h'.chrRom (h.chrIsRam.trans hr)).trans (h.chrRom hr)
  nrom hk := by
    have ho := h'.nrom (h.kind.trans hk)
    rw [h.nrom hk] at ho
    exact ho

theorem Mapper.prgRamWrite_kept (m : Mapper) (k : Nat) (v : Byte) : Mapper.Kept m (m.prgRamWrite k v) :=
  ⟨rfl, rfl, rfl, rfl, rfl, rfl, fun _ => rfl, fun _ => rfl⟩

theorem Mapper.ppuWrite_kept (m : Mapper) (a : VAddr) (d : Byte) : Mapper.Kept m (m.ppuWrite a d) := by
  unfold Mapper.ppuWrite Mapper.chrWrite
  split
  · split
    · next hram => exact ⟨rfl, rfl, rfl, rfl, rfl, rfl, fun hr => by simp [hram] at hr, fun _ => rfl⟩
    · exact Mapper.Kept.refl m
  · exact Mapper.Kept.refl m

/-- `n` is `m` with nothing but the mirroring and the MMC1's registers written. -/
def Mapper.OnlyRegisters (m n : Mapper) : Prop :=
  n = { m with
    mirroring := n.mirroring, sr := n.sr, count := n.count, control := n.control, chr0 := n.chr0, chr1 := n.chr1,
    prgBank := n.prgBank }

theorem Mapper.OnlyRegisters.withSerial {m n : Mapper} (h : m.OnlyRegisters n) (sr : BitVec 5) (count : Nat) :
    m.OnlyRegisters { n with sr := sr, count := count } := by
  unfold Mapper.OnlyRegisters at h ⊢
  rw [h]

theorem Mapper.loadRegister_onlyRegisters (m : Mapper) (a : Addr) (r : BitVec 5) :
    m.OnlyRegisters (m.loadRegister a r) := by
  unfold Mapper.loadRegister
  split <;> rfl

theorem Mapper.serialWrite_onlyRegisters (m : Mapper) (a : Addr) (d : Byte) :
    m.OnlyRegisters (m.serialWrite a d) := by
  unfold Mapper.serialWrite
  extract_lets sr
  split
  · rfl
  · split
    · exact (m.loadRegister_onlyRegisters a sr).withSerial _ _
    · rfl

theorem Mapper.OnlyRegisters.kept {m n : Mapper} (h : m.OnlyRegisters n) (hk : m.kind ≠ .nrom) : Mapper.Kept m n := by
  unfold Mapper.OnlyRegisters at h
  rw [h]
  exact ⟨rfl, rfl, rfl, rfl, rfl, rfl, fun _ => rfl, fun hn => absurd hn hk⟩

theorem Mapper.prgWrite_kept (m : Mapper) (a : Addr) (d : Byte) : Mapper.Kept m (m.prgWrite a d) := by
  cases hk : m.kind with
  | nrom =>
    simp only [Mapper.prgWrite, hk]
    exact Mapper.Kept.refl m
  | mmc1 =>
    simp only [Mapper.prgWrite, hk]
    exact (m.serialWrite_onlyRegisters a d).kept (by simp [hk])

/-- A PPU register write reaches the mapper through PPUDATA alone. -/
theorem ppuRegWrite_mapper_cases (i : Nat) (d : Byte) (s : State) :
    (ppuRegWrite i d s).mapper = s.mapper ∨ ∃ c, (ppuRegWrite i d s).mapper = s.mapper.ppuWrite c d := by
  obtain ⟨⟨p, hp⟩, -⟩ | ⟨rfl, -⟩ := ppuRegWrite_effect i d s
  · exact .inl (by rw [hp, State.setPpu_mapper])
  · exact .inr ⟨_, rfl⟩

/-- What a bus write can do to the mapper: nothing, or one write of PRG-RAM, of CHR through PPUDATA, or of the
MMC1's port. -/
theorem busWrite_mapper_cases (a : Addr) (v : Byte) (s : State) :
    (busWrite a v s).mapper = s.mapper ∨ (∃ k, (busWrite a v s).mapper = s.mapper.prgRamWrite k v) ∨
      (∃ c, (busWrite a v s).mapper = s.mapper.ppuWrite c v) ∨ (busWrite a v s).mapper = s.mapper.prgWrite a v := by
  unfold busWrite spriteDma
  generalize 256 = n
  split
  · exact .inl rfl
  · exact (ppuRegWrite_mapper_cases ..).imp id fun h => .inr (.inl h)
  · exact .inl rfl
  · split
    · exact .inl (dmaCopy_mapper ..)
    · exact .inl rfl
  · split <;> exact .inl rfl
  · exact .inl rfl
  · exact .inr (.inl ⟨_, rfl⟩)
  · exact .inr (.inr (.inr rfl))

theorem busWrite_mapper_kept (a : Addr) (v : Byte) (s : State) : Mapper.Kept s.mapper (busWrite a v s).mapper := by
  obtain h | ⟨k, h⟩ | ⟨c, h⟩ | h := busWrite_mapper_cases a v s <;> rw [h]
  · exact Mapper.Kept.refl _
  · exact Mapper.prgRamWrite_kept ..
  · exact Mapper.ppuWrite_kept ..
  · exact Mapper.prgWrite_kept ..

/-- What no step changes: the parameters, the IRQ line, the loaded flag, and what no write changes of the cartridge
(R48, R626). -/
structure SettingsKept (s t : State) : Prop where
  params : t.params = s.params
  irqLine : t.irqLine = s.irqLine
  cartLoaded : t.cartLoaded = s.cartLoaded
  mapper : Mapper.Kept s.mapper t.mapper

theorem SettingsKept.of_mapper_eq {s t : State} (hp : t.params = s.params) (hi : t.irqLine = s.irqLine)
    (hl : t.cartLoaded = s.cartLoaded) (hm : t.mapper = s.mapper) : SettingsKept s t :=
  ⟨hp, hi, hl, hm ▸ Mapper.Kept.refl _⟩

theorem settingsKept_stepRelation : StepRelation SettingsKept where
  trans h h' := ⟨h'.params.trans h.params, h'.irqLine.trans h.irqLine, h'.cartLoaded.trans h.cartLoaded,
    h.mapper.trans h'.mapper⟩
  sameDevices h := .of_mapper_eq h.params h.irqLine h.cartLoaded h.mapper
  tick _ := .of_mapper_eq rfl rfl rfl rfl
  busRead _ _ := .of_mapper_eq (busRead_params ..) (busRead_irqLine ..) (busRead_cartLoaded ..) (busRead_mapper ..)
  busWrite a v s := ⟨busWrite_params .., busWrite_irqLine .., busWrite_cartLoaded .., busWrite_mapper_kept a v s⟩

/-- Settles O10: every access keeps the settings and the cartridge, so every step does. -/
theorem romAndSettingsNeverChange : Obligations.RomAndSettingsNeverChange := by
  intro s t h
  obtain ⟨params, irqLine, cartLoaded, cart⟩ := settingsKept_stepRelation.step h
  refine ⟨⟨params, irqLine, cartLoaded, cart.prg⟩, cart.kind, cart.prgUnits, cart.chrUnits, cart.chrIsRam,
    cart.prgRamUnits, cart.chrRom, fun hk => ?_⟩
  rw [cart.nrom hk]
  exact ⟨rfl, rfl, rfl, rfl, rfl, rfl, rfl⟩


end Sys2Proof.Machine
end

section
/-!
PROOFS. The status image, and RTI after an interrupt entry.
-/

namespace Sys2Proof.Machine

/-! ### The status image -/

theorem bit_eq_decide (m : Byte) (k : Nat) : bit m k = decide (m.toNat / 2 ^ k % 2 = 1) := by
  rw [bit, ← BitVec.testBit_toNat, Nat.testBit_eq_decide_div_mod_eq]

/-- The status image is the number with the flags as its bits (R44). -/
theorem toNat_pack (p : Flags) (b : Bool) :
    (p.pack b).toNat =
      128 * p.n.toNat + 64 * p.v.toNat + 32 + 16 * b.toNat + 8 * p.d.toNat + 4 * p.i.toNat + 2 * p.z.toNat +
        p.c.toNat := by
  obtain ⟨c, z, i, d, v, n⟩ := p
  revert c z i d v n b
  decide

/-- Unpacking undoes packing, whatever stands in bit 4 (R44, R45). -/
theorem unpack_pack (p : Flags) (b : Bool) : unpack (p.pack b) = p := by
  obtain ⟨c, z, i, d, v, n⟩ := p
  revert c z i d v n b
  decide

/-- Settles O20: each flag is the bit of its position. -/
theorem statusImagePacksAndUnpacks : Obligations.StatusImagePacksAndUnpacks :=
  ⟨toNat_pack,
    fun m => ⟨(bit_eq_decide m 0).trans (by rw [pow_zero, Nat.div_one]), bit_eq_decide m 1,
      bit_eq_decide m 2, bit_eq_decide m 3, bit_eq_decide m 6, bit_eq_decide m 7⟩,
    unpack_pack⟩

/-! ### Entering an interrupt and returning from it -/

theorem word_hi8_lo8 (a : Addr) : word (hi8 a) (lo8 a) = a := by
  refine BitVec.eq_of_toNat_eq ?_
  rw [toNat_word]
  simp only [hi8, lo8, BitVec.toNat_setWidth, BitVec.toNat_ushiftRight, Nat.shiftRight_eq_div_pow]
  have := a.isLt
  omega

/-- The three bytes an interrupt entry pushes are in different slots of the stack page. -/
theorem stackIndex_frame (sp : Byte) :
    stackIndex sp 0 ≠ stackIndex sp 1 ∧ stackIndex sp 0 ≠ stackIndex sp 2 ∧ stackIndex sp 1 ≠ stackIndex sp 2 := by
  simp only [stackIndex]
  refine ⟨?_, ?_, ?_⟩ <;> bv_omega

theorem stackIndex_lt (sp : Byte) (k : Nat) : stackIndex sp k < 2048 := by
  have := (sp - BitVec.ofNat 8 k).isLt
  unfold stackIndex
  omega

/-- RAM with a return address and a status image pushed from S on. -/
def State.withFrame (s : State) (ret : Addr) (image : Byte) : State :=
  ((s.ramWrite (stackIndex s.sp 0) (hi8 ret)).ramWrite (stackIndex s.sp 1) (lo8 ret)).ramWrite (stackIndex s.sp 2) image

/-- The bytes of a pushed frame read back, each from its slot. -/
theorem State.withFrame_ramAt {s : State} (h : s.Ok) (ret : Addr) (image : Byte) :
    (s.withFrame ret image).ramAt (stackIndex s.sp 2) = image ∧
      (s.withFrame ret image).ramAt (stackIndex s.sp 1) = lo8 ret ∧
      (s.withFrame ret image).ramAt (stackIndex s.sp 0) = hi8 ret := by
  obtain ⟨h01, h02, h12⟩ := stackIndex_frame s.sp
  have h1 := h.ramWrite (stackIndex_lt s.sp 0) (hi8 ret)
  have h2 := h1.ramWrite (stackIndex_lt s.sp 1) (lo8 ret)
  simp only [State.withFrame, ramAt_ramWrite h2, ramAt_ramWrite h1, ramAt_ramWrite h, if_true, if_neg h01, if_neg h02,
    if_neg h12, and_self]

theorem ticks_withFrame (n : Nat) (s : State) (ret : Addr) (image : Byte) :
    ticks n (s.withFrame ret image) = (ticks n s).withFrame ret image := by
  simp only [State.withFrame, ticks_ramWrite, ticks_sp]

theorem targetOf_interruptVector (k : Interrupt) :
    targetOf k.vector = .prgRom ∧ targetOf (k.vector + 1#16) = .prgRom := by
  cases k <;> exact ⟨targetOf_vector (by decide), targetOf_vector (by decide)⟩

/-- What an interrupt entry does (R469): the frame pushed, I set, S three less, the pc from the vector, in 7 ticks. -/
theorem interrupt_eq (k : Interrupt) (s : State) :
    interrupt k s =
      ((((ticks 7 s).withFrame s.pc (s.p.pack false)).setSp (s.sp - 3#8)).setP (s.p.setI true)).setPc
        (word (s.mapper.prgRead (k.vector + 1#16)) (s.mapper.prgRead k.vector)) := by
  obtain ⟨h, h'⟩ := targetOf_interruptVector k
  show enterVector s.pc false k.vector (ticks 2 s) = _
  simp only [enterVector_eq h h', ← ticks_add, ticks_sp, ticks_p, ticks_mapper, State.withFrame]

/-- Writes of the CPU's registers and of work RAM are not seen by `Waited`. -/
theorem Waited.ramWrite {n : Nat} {s t : State} (h : Waited n s t) (k : Nat) (v : Byte) : Waited n s (t.ramWrite k v) :=
  let ⟨f, d, m, c⟩ := h
  ⟨⟨f.params, f.irqLine, f.cartLoaded, f.prg⟩, ⟨d.ppu, d.nmiPending, d.remainingCycles, d.draws, d.events⟩, m, c⟩

theorem Waited.registers {n : Nat} {s t u : State} (h : Waited n s t) (hu : OnlyRegisters t u) : Waited n s u := by
  obtain ⟨f, d, m, c⟩ := h
  unfold OnlyRegisters at hu
  rw [hu]
  exact ⟨⟨f.params, f.irqLine, f.cartLoaded, f.prg⟩, ⟨d.ppu, d.nmiPending, d.remainingCycles, d.draws, d.events⟩, m, c⟩

theorem Waited.withFrame {n : Nat} {s t : State} (h : Waited n s t) (ret : Addr) (image : Byte) :
    Waited n s (t.withFrame ret image) := ((h.ramWrite _ _).ramWrite _ _).ramWrite _ _

/-- The slots that three pulls after three pushes read are those of the pushes, the last one first. -/
theorem stackIndex_of_pull (sp : Byte) :
    0x100 + (sp - 3#8 + 1#8).toNat = stackIndex sp 2 ∧ 0x100 + (sp - 3#8 + 2#8).toNat = stackIndex sp 1 ∧
      0x100 + (sp - 3#8 + 3#8).toNat = stackIndex sp 0 := by
  simp only [stackIndex]
  refine ⟨?_, ?_, ?_⟩ <;> bv_omega

/-- RTI over a pushed frame restores what was pushed (R401). -/
theorem returnFromInterrupt_of_frame {s : State} {sp : Byte} {ret : Addr} {p : Flags} {b : Bool}
    (hsp : s.sp = sp - 3#8) (image : s.ramAt (stackIndex sp 2) = p.pack b)
    (lo : s.ramAt (stackIndex sp 1) = lo8 ret) (hi : s.ramAt (stackIndex sp 0) = hi8 ret) :
    returnFromInterrupt s = (((ticks 5 s).setSp sp).setP p).setPc ret := by
  obtain ⟨i2, i1, i0⟩ := stackIndex_of_pull sp
  rw [returnFromInterrupt_eq, hsp, i2, i1, i0, image, lo, hi, unpack_pack, word_hi8_lo8, BitVec.sub_add_cancel]

/-- Writing S, the flags and the pc twice is writing them once. -/
theorem State.rewrite_sp_p_pc (s : State) (sp sp' : Byte) (p p' : Flags) (pc pc' : Addr) :
    (((((s.setSp sp').setP p').setPc pc').setSp sp).setP p).setPc pc = ((s.setSp sp).setP p).setPc pc := rfl

theorem interrupt_ramAt (k : Interrupt) (s : State) (j : Nat) :
    (interrupt k s).ramAt j = ((ticks 7 s).withFrame s.pc (s.p.pack false)).ramAt j := by
  rw [interrupt_eq, setPc_ramAt, setP_ramAt, setSp_ramAt]

/-- An interrupt entry leaves the return address and the status image on top of the stack (R469). -/
theorem interrupt_frame {s : State} (h : s.Ok) (k : Interrupt) :
    (interrupt k s).ramAt (stackIndex s.sp 2) = s.p.pack false ∧
      (interrupt k s).ramAt (stackIndex s.sp 1) = lo8 s.pc ∧ (interrupt k s).ramAt (stackIndex s.sp 0) = hi8 s.pc := by
  have frame := State.withFrame_ramAt (h.ticks 7) s.pc (s.p.pack false)
  rw [ticks_sp] at frame
  rwa [interrupt_ramAt, interrupt_ramAt, interrupt_ramAt]

theorem interrupt_sp (k : Interrupt) (s : State) : (interrupt k s).sp = s.sp - 3#8 := by
  rw [interrupt_eq, State.setPc_sp, State.setP_sp, State.setSp_sp]

/-- RTI right after an interrupt entry leaves the state 12 ticks on, but for the frame in the stack page. -/
theorem returnFromInterrupt_interrupt {s : State} (h : s.Ok) (k : Interrupt) :
    returnFromInterrupt (interrupt k s) =
      ((((ticks 12 s).withFrame s.pc (s.p.pack false)).setSp s.sp).setP s.p).setPc s.pc := by
  obtain ⟨image, lo, hi⟩ := interrupt_frame h k
  rw [returnFromInterrupt_of_frame (interrupt_sp k s) image lo hi, interrupt_eq, ticks_setPc, ticks_setP, ticks_setSp,
    ticks_withFrame, ← ticks_add, State.rewrite_sp_p_pc]

theorem exec_rti (s : State) : exec .rti s = .next (returnFromInterrupt s) := rfl

/-- After `n` ticks, a frame in the stack page and three registers written, the other registers are as before. -/
theorem cpuIs_ticks_withFrame (n : Nat) (s : State) (ret pc : Addr) (image sp : Byte) (p : Flags) :
    CpuIs (((((ticks n s).withFrame ret image).setSp sp).setP p).setPc pc) s.a s.x s.y sp pc p := by
  constructor <;> simp [State.withFrame]

/-- The same state is `n` ticks on. -/
theorem waited_ticks_withFrame (n : Nat) (s : State) (ret pc : Addr) (image sp : Byte) (p : Flags) :
    Waited n s (((((ticks n s).withFrame ret image).setSp sp).setP p).setPc pc) := by
  have waited := (Waited.ticks n s).withFrame ret image
  generalize (ticks n s).withFrame ret image = u at waited ⊢
  exact waited.registers rfl

/-- Settles O15: the frame that the entry pushed reads back. -/
theorem returnFromInterruptUndoesEntry : Obligations.ReturnFromInterruptUndoesEntry := by
  intro k s h
  refine ⟨_, exec_rti _, ?_⟩
  rw [returnFromInterrupt_interrupt ((State.inv_iff s).mp h)]
  exact ⟨cpuIs_ticks_withFrame .., waited_ticks_withFrame ..⟩


end Sys2Proof.Machine
end

section
/-!
PROOFS. The invariant over a step, what a step fetches from memory, and the CPU's address space below 0x6000 but for the
PPU's registers: work RAM, the stub and controller window, sprite DMA.
-/

namespace Sys2Proof.Machine

/-! ### The invariant -/

/-- Every access keeps the invariant. -/
theorem ok_stepRelation : StepRelation fun s t => s.Ok → t.Ok where
  trans h h' ok := h' (h ok)
  sameDevices h ok := ok.congr h.ram h.params h.ppu h.mapper
  tick _ ok := ok.tick
  busRead a _ ok := ok.busRead a
  busWrite a v _ ok := ok.busWrite a v

/-- Settles O9: every access keeps the invariant, so every step does. -/
theorem stepKeepsTheInvariant : Obligations.StepKeepsTheInvariant := by
  intro s t inv h
  rw [State.inv_iff] at inv ⊢
  exact ok_stepRelation.step h inv

/-! ### Fetching an instruction from memory -/

/-- `bytes` are those of `i`: the row of the opcode makes `i` of the operand bytes. -/
inductive MadeFrom : Instr → List Byte → Prop where
  | f1 {op : Byte} {i : Instr} (h : rowOf op = .f1 i) : MadeFrom i [op]
  | f2 {op : Byte} {make : Byte → Instr} (h : rowOf op = .f2 make) (b : Byte) : MadeFrom (make b) [op, b]
  | f3 {op : Byte} {make : Addr → Instr} (h : rowOf op = .f3 make) (a : Addr) :
      MadeFrom (make a) [op, lo8 a, hi8 a]

/-- The bytes of an instruction are those its row makes it of (R135). -/
theorem madeFrom_encode (i : Instr) : MadeFrom i (encode i) := by
  cases i with
  | brk | undef02 | php | aslAcc | undef0B | undef12 | clc | nop1A | undef22 | plp | rolAcc | undef2B | undef32
  | sec | nop3A | rti | undef42 | pha | lsrAcc | undef4B | undef52 | cli | nop5A | rts | undef62 | pla | rorAcc
  | undef6B | undef72 | sei | nop7A | dey | txa | undef8B | undef92 | undef93 | tya | txs | undef9B | undef9C
  | undef9E | undef9F | tay | tax | undefAB | undefB2 | clv | tsx | undefBB | iny | dex | undefCB | undefD2 | cld
  | nopDA | inx | nop | undefF2 | sed | nopFA =>
    exact .f1 rfl
  | oraIzx | sloIzx | nop04 | oraZp | aslZp | sloZp | oraImm | bpl | oraIzy | sloIzy | nop14 | oraZpx | aslZpx
  | sloZpx | jsr | andIzx | rlaIzx | bitZp | andZp | rolZp | rlaZp | andImm | bmi | andIzy | rlaIzy | nop34 | andZpx
  | rolZpx | rlaZpx | eorIzx | sreIzx | nop44 | eorZp | lsrZp | sreZp | eorImm | bvc | eorIzy | sreIzy | nop54
  | eorZpx | lsrZpx | sreZpx | adcIzx | rraIzx | nop64 | adcZp | rorZp | rraZp | adcImm | bvs | adcIzy | rraIzy
  | nop74 | adcZpx | rorZpx | rraZpx | nop80 | staIzx | nop82 | saxIzx | styZp | staZp | stxZp | saxZp | nop89 | bcc
  | staIzy | styZpx | staZpx | stxZpy | saxZpy | ldyImm | ldaIzx | ldxImm | laxIzx | ldyZp | ldaZp | ldxZp | laxZp
  | ldaImm | bcs | ldaIzy | laxIzy | ldyZpx | ldaZpx | ldxZpy | laxZpy | cpyImm | cmpIzx | nopC2 | dcpIzx | cpyZp
  | cmpZp | decZp | dcpZp | cmpImm | bne | cmpIzy | dcpIzy | nopD4 | cmpZpx | decZpx | dcpZpx | cpxImm | sbcIzx
  | nopE2 | isbIzx | cpxZp | sbcZp | incZp | isbZp | sbcImm | sbcImmEB | beq | sbcIzy | isbIzy | nopF4 | sbcZpx
  | incZpx | isbZpx =>
    exact .f2 rfl _
  | nop0C | oraAbs | aslAbs | sloAbs | oraAby | sloAby | nop1C | oraAbx | aslAbx | sloAbx | bitAbs | andAbs | rolAbs
  | rlaAbs | andAby | rlaAby | nop3C | andAbx | rolAbx | rlaAbx | jmpAbs | eorAbs | lsrAbs | sreAbs | eorAby
  | sreAby | nop5C | eorAbx | lsrAbx | sreAbx | jmpInd | adcAbs | rorAbs | rraAbs | adcAby | rraAby | nop7C | adcAbx
  | rorAbx | rraAbx | styAbs | staAbs | stxAbs | saxAbs | staAby | staAbx | ldyAbs | ldaAbs | ldxAbs | laxAbs
  | ldaAby | ldyAbx | ldaAbx | ldxAby | laxAby | cpyAbs | cmpAbs | decAbs | dcpAbs | cmpAby | dcpAby | nopDC
  | cmpAbx | decAbx | dcpAbx | cpxAbs | sbcAbs | incAbs | isbAbs | sbcAby | isbAby | nopFC | sbcAbx | incAbx
  | isbAbx =>
    exact .f3 rfl _

/-- `n` bytes on: `n` ticks, and the pc `n` more. -/
def State.fetched (s : State) (n : Nat) : State := (ticks n s).setPc (s.pc + BitVec.ofNat 16 n)

theorem State.fetched_zero (s : State) : s.fetched 0 = s := by
  simp only [State.fetched, BitVec.add_zero]
  rfl

theorem State.fetched_pc (s : State) (n : Nat) : (s.fetched n).pc = s.pc + BitVec.ofNat 16 n := rfl

theorem State.fetched_peek (s : State) (n : Nat) (a : Addr) : (s.fetched n).peek a = s.peek a :=
  State.peek_congr (ticks_ram n s) (ticks_params n s) (ticks_mapper n s) a

/-- The byte after `n` fetched ones is fetched when it stands in memory. -/
theorem fetchByte_fetched {s : State} {n : Nat} {b : Byte} (h : s.peek (s.pc + BitVec.ofNat 16 n) = some b) :
    fetchByte (s.fetched n) = (b, s.fetched (n + 1)) := by
  have pc : s.pc + BitVec.ofNat 16 n + 1#16 = s.pc + BitVec.ofNat 16 (n + 1) := by
    rw [BitVec.add_assoc, ← BitVec.ofNat_add]
  rw [fetchByte_of_peek (b := b) (by rwa [State.fetched_peek, State.fetched_pc]), State.fetched_pc, pc]
  simp only [State.fetched, tick_setPc, Nat.add_comm n 1, ticks_add, ticks_one]
  rfl

/-- The bytes stand in memory from the pc on. -/
def State.Holds (s : State) (bytes : List Byte) : Prop :=
  ∀ (k : Nat) (b : Byte), bytes[k]? = some b → s.peek (s.pc + BitVec.ofNat 16 k) = some b

theorem State.Holds.fetchByte {s : State} {bytes : List Byte} (h : s.Holds bytes) {n : Nat} {b : Byte}
    (hb : bytes[n]? = some b) : fetchByte (s.fetched n) = (b, s.fetched (n + 1)) := fetchByte_fetched (h n b hb)

/-- The first byte fetched is the opcode. -/
theorem State.Holds.opcode {s : State} {op : Byte} {rest : List Byte} (h : s.Holds (op :: rest)) :
    Machine.fetchByte s = (op, s.fetched 1) := by
  have first := h.fetchByte (n := 0) rfl
  rwa [State.fetched_zero] at first

/-- An instruction whose bytes stand in memory is what is fetched (R131). -/
theorem State.Holds.fetchInstr {s : State} {i : Instr} {bytes : List Byte} (made : MadeFrom i bytes)
    (h : s.Holds bytes) : fetchInstr s = (i, s.fetched bytes.length) := by
  cases made with
  | f1 row => simp only [Machine.fetchInstr, h.opcode, row, List.length_cons, List.length_nil]
  | f2 row b =>
    have operand := h.fetchByte (n := 1) rfl
    simp only [Machine.fetchInstr, h.opcode, row, operand, List.length_cons, List.length_nil]
  | f3 row a =>
    have low := h.fetchByte (n := 1) rfl
    have high := h.fetchByte (n := 2) rfl
    simp only [Machine.fetchInstr, h.opcode, row, low, high, word_hi8_lo8, List.length_cons, List.length_nil]

/-- Opening a budget changes no byte of memory. -/
theorem State.Holds.opened {s : State} {bytes : List Byte} (h : s.Holds bytes) : s.opened.Holds bytes := by
  intro k b hb
  rw [State.peek_congr s.opened_ram s.opened_params s.opened_mapper, State.opened_pc]
  exact h k b hb

theorem fetchByte_mem_head {s : State} {i : Instr} {bytes : List Byte} (made : MadeFrom i bytes) (h : s.Holds bytes) :
    (fetchByte s).1 ∈ bytes.head? := by
  cases made <;> rw [h.opcode] <;> rfl

/-- Settles O5: the fetch at the pc gives the instruction, and its opcode has a handler. -/
theorem stepRunsBytesInMemory : Obligations.StepRunsBytesInMemory := by
  intro s i loaded nmi irq handler mem
  have made := madeFrom_encode i
  have holds : s.opened.Holds (encode i) := State.Holds.opened mem
  have kept : s.opened.params.removes (fetchByte s.opened).1 = false := by
    rw [State.opened_params]
    exact handler _ (fetchByte_mem_head made holds)
  rw [step_of_quiet loaded nmi irq, runInstr_of_handler kept, holds.fetchInstr made, State.fetched, State.opened_pc]

/-! ### Work RAM -/

/-- The four mirrors of work RAM (R91). -/
theorem targetOf_workRam {a : Addr} (h : a.toNat < 0x2000) : targetOf a = .ram (a.toNat % 0x800) := if_pos h

theorem busRead_at_ram {a : Addr} {k : Nat} (h : targetOf a = .ram k) (s : State) : busRead a s = (s.ramAt k, s) := by
  simp only [busRead, h]

theorem busWrite_at_ram {a : Addr} {k : Nat} (h : targetOf a = .ram k) (v : Byte) (s : State) :
    busWrite a v s = s.ramWrite k v := by
  simp only [busWrite, h]

/-- Settles O16: both addresses select the same byte exactly when they agree modulo 0x800. -/
theorem ramIsMirroredFourTimes : Obligations.RamIsMirroredFourTimes := by
  intro s a b v inv ha hb
  have ok := (State.inv_iff s).mp inv
  rw [busWrite_at_ram (targetOf_workRam ha), busRead_at_ram (targetOf_workRam ha), busRead_at_ram (targetOf_workRam hb),
    busRead_at_ram (targetOf_workRam hb), ramAt_ramWrite ok]
  exact ⟨fun same => if_pos same.symm, fun other => if_neg (Ne.symm other), rfl, rfl⟩

/-! ### The window from 0x4000 to 0x5FFF -/

/-- The stub's addresses, 0x4014 apart (R94). -/
theorem targetOf_stub {a : Addr} (h : 0x4000 ≤ a.toNat) (h' : a.toNat < 0x4016) (hd : a.toNat ≠ 0x4014) :
    targetOf a = .apu := by
  simp only [targetOf]
  rw [if_neg (by omega), if_neg (by omega), if_neg hd, if_pos h']

/-- The sprite DMA port (R95). -/
theorem targetOf_dmaPort {a : Addr} (h : a.toNat = 0x4014) : targetOf a = .dma := by
  simp only [targetOf]
  rw [if_neg (by omega), if_neg (by omega), if_pos h]

/-- The controller ports (R96). -/
theorem targetOf_controllerPort {a : Addr} (h : 0x4016 ≤ a.toNat) (h' : a.toNat < 0x4018) :
    targetOf a = .controller (a.toNat - 0x4016) := by
  simp only [targetOf]
  rw [if_neg (by omega), if_neg (by omega), if_neg (by omega), if_neg (by omega), if_pos h']

/-- The addresses nothing drives (R99, R625). -/
theorem targetOf_unassigned {a : Addr} (h : 0x4018 ≤ a.toNat) (h' : a.toNat < 0x6000) : targetOf a = .undriven := by
  simp only [targetOf]
  rw [if_neg (by omega), if_neg (by omega), if_neg (by omega), if_neg (by omega), if_neg (by omega), if_pos h']

theorem busRead_stub {a : Addr} (h : 0x4000 ≤ a.toNat) (h' : a.toNat < 0x4016) (s : State) :
    busRead a s = (0x00#8, s) := by
  by_cases hd : a.toNat = 0x4014
  · simp only [busRead, targetOf_dmaPort hd]
  · simp only [busRead, targetOf_stub h h' hd]

/-- A read of a controller port or of an address nothing drives moves the draw counter alone. -/
theorem busRead_draws {a : Addr} (h : 0x4016 ≤ a.toNat) (h' : a.toNat < 0x6000) (s : State) :
    (busRead a s).2 = s.countDraw := by
  by_cases hc : a.toNat < 0x4018
  · simp only [busRead, targetOf_controllerPort h hc, controllerRead]
  · simp only [busRead, targetOf_unassigned (Nat.le_of_not_lt hc) h', drawByte]

/-- Neither the second controller port nor an address nothing drives takes a write. -/
theorem busWrite_ignored {a : Addr} (h : 0x4017 ≤ a.toNat) (h' : a.toNat < 0x6000) (v : Byte) (s : State) :
    busWrite a v s = s := by
  by_cases hc : a.toNat < 0x4018
  · simp only [busWrite, targetOf_controllerPort (by omega) hc]
    exact if_neg (by omega)
  · simp only [busWrite, targetOf_unassigned (Nat.le_of_not_lt hc) h']

theorem busWrite_dmaPort {a : Addr} (h : a.toNat = 0x4014) (v : Byte) (s : State) :
    busWrite a v s = if s.params.oamDmaEnabled then spriteDma v s else s := by
  simp only [busWrite, targetOf_dmaPort h]

/-- Settles O17, by the part of the window an address is in. -/
theorem ioWindowAndUnassignedAddresses : Obligations.IoWindowAndUnassignedAddresses := by
  intro s a v
  refine ⟨fun h h' => busRead_stub h h' s, fun h h' hd => ?_, fun h off => ?_, fun h h' => busRead_draws h h' s,
    fun h => ?_, fun h h' => busWrite_ignored h h' v s⟩
  · simp only [busWrite, targetOf_stub h h' hd]
  · rw [busWrite_dmaPort h, off, if_neg Bool.false_ne_true]
  · simp only [busWrite, targetOf_controllerPort (a := a) (by omega) (by omega)]
    exact if_pos (by omega)

/-! ### Sprite DMA -/

/-- OAM after an OAMDATA write (R537). -/
theorem Ppu.writeOam_oamAt (p : Ppu) (d : Byte) (k : Nat) :
    (p.writeOam d).oamAt k = if k = p.oamAddr.toNat then d else p.oamAt k := Memory.read_write_none ..

/-! An OAMDATA write in the terms of the copy. -/

theorem oamData_oamAddr (d : Byte) (s : State) : (ppuRegWrite 4 d s).ppu.oamAddr = s.ppu.oamAddr + 1#8 := rfl

theorem oamData_oamAt (d : Byte) (s : State) (k : Nat) :
    (ppuRegWrite 4 d s).ppu.oamAt k = if k = s.ppu.oamAddr.toNat then d else s.ppu.oamAt k :=
  s.ppu.writeOam_oamAt d k

@[simp] theorem tick_oamAt (s : State) (k : Nat) : (tick s).ppu.oamAt k = s.ppu.oamAt k := by
  simp only [Ppu.oamAt, tick_ppu_oam]

/-- The RAM byte that byte `i` of page `page` names. -/
def State.pageByte (s : State) (page : Byte) (i : Nat) : Byte := s.ramAt ((page.toNat * 256 + i) % 0x800)

@[simp] theorem tick_pageByte (s : State) (page : Byte) (i : Nat) : (tick s).pageByte page i = s.pageByte page i :=
  tick_ramAt ..

theorem oamData_pageByte (d : Byte) (s : State) (page : Byte) (i : Nat) :
    (ppuRegWrite 4 d s).pageByte page i = s.pageByte page i := rfl

/-- One copy of sprite DMA from a page of work RAM (R95): two ticks around the read, then the OAMDATA write. -/
theorem dmaCopy_succ {page : Byte} (hp : page.toNat < 0x20) {n : Nat} (hn : n < 256) (s : State) :
    dmaCopy page (n + 1) s = dmaCopy page n (ppuRegWrite 4 (s.pageByte page (255 - n)) (tick (tick s))) := by
  have addr : (word page (BitVec.ofNat 8 (255 - n))).toNat = page.toNat * 256 + (255 - n) := by
    rw [toNat_word, BitVec.toNat_ofNat, Nat.mod_eq_of_lt (by omega)]
  have target := targetOf_workRam (a := word page (BitVec.ofNat 8 (255 - n))) (by omega)
  rw [addr] at target
  simp only [dmaCopy, memRead_at_ram target]
  rfl

/-- The last `n` copies step the OAM address `n` times (R537). -/
theorem dmaCopy_oamAddr {page : Byte} (hp : page.toNat < 0x20) {n : Nat} (hn : n ≤ 256) (s : State) :
    (dmaCopy page n s).ppu.oamAddr = s.ppu.oamAddr + BitVec.ofNat 8 n := by
  induction n generalizing s with
  | zero => exact (BitVec.add_zero _).symm
  | succ n ih =>
    rw [dmaCopy_succ hp hn, ih (by omega), oamData_oamAddr, tick_ppu_oamAddr, tick_ppu_oamAddr, BitVec.add_assoc,
      ← BitVec.ofNat_add, Nat.add_comm]

/-- The last `n` copies write the last `n` bytes of the page into OAM from its address on, and leave the rest. -/
theorem dmaCopy_oamAt {page : Byte} (hp : page.toNat < 0x20) {n : Nat} (hn : n ≤ 256) (s : State) (k : Byte) :
    (dmaCopy page n s).ppu.oamAt k.toNat =
      if (k - s.ppu.oamAddr).toNat < n then s.pageByte page (256 - n + (k - s.ppu.oamAddr).toNat)
      else s.ppu.oamAt k.toNat := by
  induction n generalizing s with
  | zero => rfl
  | succ n ih =>
    rw [dmaCopy_succ hp hn, ih (by omega)]
    simp only [oamData_oamAddr, oamData_oamAt, oamData_pageByte, tick_ppu_oamAddr, tick_oamAt, tick_pageByte]
    generalize s.ppu.oamAddr = start
    by_cases hk : k = start
    · have before : (k - (start + 1#8)).toNat = 255 := by bv_omega
      have first : (k - start).toNat = 0 := by bv_omega
      rw [before, first, if_neg (by omega), if_pos (congrArg _ hk), if_pos (by omega)]
      congr 1
      omega
    · have next : (k - start).toNat = (k - (start + 1#8)).toNat + 1 := by bv_omega
      have other : k.toNat ≠ start.toNat := fun h => hk (BitVec.eq_of_toNat_eq h)
      rw [next, if_neg other]
      simp only [Nat.add_lt_add_iff_right]
      congr 2
      omega

/-- The 256 copies of a whole page, each byte to its place in OAM from the OAM address on. -/
theorem spriteDma_oamAt {page : Byte} (hp : page.toNat < 0x20) (s : State) {i : Nat} (hi : i < 256) :
    (spriteDma page s).ppu.oamAt ((s.ppu.oamAddr.toNat + i) % 256) = s.pageByte page i := by
  have index : (s.ppu.oamAddr.toNat + i) % 256 = (s.ppu.oamAddr + BitVec.ofNat 8 i).toNat := by
    rw [BitVec.toNat_add, BitVec.toNat_ofNat, Nat.add_mod_mod]
  have place : (s.ppu.oamAddr + BitVec.ofNat 8 i - s.ppu.oamAddr).toNat = i := by
    rw [BitVec.add_comm, BitVec.add_sub_cancel, BitVec.toNat_ofNat, Nat.mod_eq_of_lt hi]
  rw [index, spriteDma, dmaCopy_oamAt hp (le_refl 256), tick_ppu_oamAddr, place, if_pos hi, tick_pageByte,
    Nat.sub_self, Nat.zero_add]

theorem spriteDma_oamAddr {page : Byte} (hp : page.toNat < 0x20) (s : State) :
    (spriteDma page s).ppu.oamAddr = s.ppu.oamAddr := by
  rw [spriteDma, dmaCopy_oamAddr hp (le_refl 256), tick_ppu_oamAddr]
  exact BitVec.add_zero _

theorem spriteDma_remainingCycles (page : Byte) (s : State) :
    (spriteDma page s).remainingCycles = s.remainingCycles - 513 := by
  rw [spriteDma, dmaCopy_remainingCycles, tick_remainingCycles]
  omega

theorem spriteDma_cpuIs (page : Byte) (s : State) : CpuIs (spriteDma page s) s.a s.x s.y s.sp s.pc s.p := by
  unfold spriteDma
  constructor <;> simp

/-- Settles O18: the 256 copies land one after the other, and the OAM address comes round. -/
theorem spriteDmaCopiesAPage : Obligations.SpriteDmaCopiesAPage := by
  intro s v on hv
  have write : busWrite 0x4014#16 v s = spriteDma v s := (busWrite_dmaPort rfl v s).trans (if_pos on)
  simp only [write]
  exact ⟨fun i hi => spriteDma_oamAt hv s hi, spriteDma_oamAddr hv s, spriteDma_cpuIs v s, dmaCopy_ram ..,
    dmaCopy_mapper .., spriteDma_remainingCycles v s⟩

end Sys2Proof.Machine
end

section
/-!
PROOFS. The PPU's registers as the CPU sees them through the window from 0x2000 to 0x3FFF (65_ppu.md R530 to R545), but
for PPUDATA.
-/

namespace Sys2Proof.Machine

open Sys2Proof.Claims

/-! ### The window -/

/-- The eight registers, mirrored through the window (R92). -/
theorem targetOf_ppu {a : Addr} {i : Nat} (h : AtPpu i a) : targetOf a = .ppu i := by
  obtain ⟨low, high, rfl⟩ := h
  simp only [targetOf]
  rw [if_neg (by omega), if_pos high]

theorem busWrite_ppu {a : Addr} {i : Nat} (h : AtPpu i a) (d : Byte) (s : State) :
    busWrite a d s = ppuRegWrite i d s := by
  simp only [busWrite, targetOf_ppu h]

theorem busRead_ppu {a : Addr} {i : Nat} (h : AtPpu i a) (s : State) : busRead a s = ppuRegRead i s := by
  simp only [busRead, targetOf_ppu h]

/-! ### Writes of t -/

/-- t after a PPUCTRL write (R534). -/
def ctrlBits (t : Scroll) (d : Byte) : Scroll := (t &&& 0x73FF#15) ||| ((d &&& 0x03#8).setWidth 15 <<< 10)

/-- t after PPUSCROLL's first write (R539). -/
def scrollX (t : Scroll) (d : Byte) : Scroll := (t &&& 0x7FE0#15) ||| (d >>> 3).setWidth 15

/-- t after PPUSCROLL's second write (R539). -/
def scrollY (t : Scroll) (d : Byte) : Scroll :=
  (t &&& 0x0C1F#15) ||| ((d &&& 0x07#8).setWidth 15 <<< 12) ||| ((d >>> 3).setWidth 15 <<< 5)

/-- t after PPUADDR's first write (R541). -/
def addrHigh (t : Scroll) (d : Byte) : Scroll := (t &&& 0x00FF#15) ||| ((d &&& 0x3F#8).setWidth 15 <<< 8)

/-- t after PPUADDR's second write (R541). -/
def addrLow (t : Scroll) (d : Byte) : Scroll := (t &&& 0x7F00#15) ||| d.setWidth 15

/-- Two fields of `n` bits, from `k` on and from `j` on, are the same number when their bits are the same: for fields
of a word masked and shifted by literals, each bit is one evaluation. -/
theorem field_eq {w w' : Nat} {x : BitVec w} {y : BitVec w'} (k j n : Nat)
    (h : ∀ i < n, x.getLsbD (k + i) = y.getLsbD (j + i) := by
      intro i hi
      interval_cases i <;> simp [ctrlBits, scrollX, scrollY, addrHigh, addrLow]) :
    x.toNat / 2 ^ k % 2 ^ n = y.toNat / 2 ^ j % 2 ^ n := by
  have same : x.extractLsb' k n = y.extractLsb' j n := by
    refine BitVec.eq_of_getLsbD_eq fun i hi => ?_
    rw [BitVec.getLsbD_extractLsb', BitVec.getLsbD_extractLsb', h i hi]
  rw [← Nat.shiftRight_eq_div_pow, ← Nat.shiftRight_eq_div_pow, ← BitVec.extractLsb'_toNat,
    ← BitVec.extractLsb'_toNat, same]

theorem toNat_append_add {n k : Nat} (x : BitVec n) (y : BitVec k) : (x ++ y).toNat = x.toNat * 2 ^ k + y.toNat := by
  rw [BitVec.toNat_append, ← Nat.shiftLeft_add_eq_or_of_lt y.isLt, Nat.shiftLeft_eq]

/-- Bits 11:10 are replaced, the rest of t is kept. -/
theorem toNat_ctrlBits (t : Scroll) (d : Byte) :
    (ctrlBits t d).toNat / 4096 = t.toNat / 4096 ∧ (ctrlBits t d).toNat / 1024 % 4 = d.toNat % 4 ∧
      (ctrlBits t d).toNat % 1024 = t.toNat % 1024 := by
  have top : (ctrlBits t d).toNat / 2 ^ 12 % 2 ^ 3 = t.toNat / 2 ^ 12 % 2 ^ 3 := field_eq 12 12 3
  have nametable : (ctrlBits t d).toNat / 2 ^ 10 % 2 ^ 2 = d.toNat / 2 ^ 0 % 2 ^ 2 := field_eq 10 0 2
  have low : (ctrlBits t d).toNat / 2 ^ 0 % 2 ^ 10 = t.toNat / 2 ^ 0 % 2 ^ 10 := field_eq 0 0 10
  omega

/-- Coarse X is replaced, the rest of t is kept. -/
theorem toNat_scrollX (t : Scroll) (d : Byte) :
    (scrollX t d).toNat % 32 = d.toNat / 8 ∧ (scrollX t d).toNat / 32 = t.toNat / 32 := by
  have coarse : (scrollX t d).toNat / 2 ^ 0 % 2 ^ 5 = d.toNat / 2 ^ 3 % 2 ^ 5 := field_eq 0 3 5
  have rest : (scrollX t d).toNat / 2 ^ 5 % 2 ^ 10 = t.toNat / 2 ^ 5 % 2 ^ 10 := field_eq 5 5 10
  omega

/-- Coarse Y and fine Y are replaced, coarse X and the nametable bits are kept. -/
theorem toNat_scrollY (t : Scroll) (d : Byte) :
    (scrollY t d).toNat % 32 = t.toNat % 32 ∧ (scrollY t d).toNat / 32 % 32 = d.toNat / 8 ∧
      (scrollY t d).toNat / 1024 % 4 = t.toNat / 1024 % 4 ∧ (scrollY t d).toNat / 4096 = d.toNat % 8 := by
  have coarseX : (scrollY t d).toNat / 2 ^ 0 % 2 ^ 5 = t.toNat / 2 ^ 0 % 2 ^ 5 := field_eq 0 0 5
  have coarseY : (scrollY t d).toNat / 2 ^ 5 % 2 ^ 5 = d.toNat / 2 ^ 3 % 2 ^ 5 := field_eq 5 3 5
  have nametable : (scrollY t d).toNat / 2 ^ 10 % 2 ^ 2 = t.toNat / 2 ^ 10 % 2 ^ 2 := field_eq 10 10 2
  have fineY : (scrollY t d).toNat / 2 ^ 12 % 2 ^ 3 = d.toNat / 2 ^ 0 % 2 ^ 3 := field_eq 12 0 3
  omega

/-- The high byte is replaced by the low six bits written, the low byte is kept. -/
theorem toNat_addrHigh (t : Scroll) (d : Byte) : (addrHigh t d).toNat = d.toNat % 64 * 256 + t.toNat % 256 := by
  have low : (addrHigh t d).toNat / 2 ^ 0 % 2 ^ 8 = t.toNat / 2 ^ 0 % 2 ^ 8 := field_eq 0 0 8
  have high : (addrHigh t d).toNat / 2 ^ 8 % 2 ^ 6 = d.toNat / 2 ^ 0 % 2 ^ 6 := field_eq 8 0 6
  have top : (addrHigh t d).toNat / 2 ^ 14 % 2 ^ 1 = (0#1).toNat / 2 ^ 0 % 2 ^ 1 := field_eq 14 0 1
  simp only [BitVec.toNat_ofNat] at top
  omega

/-- The low byte is replaced, the high bits are kept. -/
theorem toNat_addrLow (t : Scroll) (d : Byte) : (addrLow t d).toNat = t.toNat / 256 * 256 + d.toNat := by
  have low : (addrLow t d).toNat / 2 ^ 0 % 2 ^ 8 = d.toNat / 2 ^ 0 % 2 ^ 8 := field_eq 0 0 8
  have high : (addrLow t d).toNat / 2 ^ 8 % 2 ^ 7 = t.toNat / 2 ^ 8 % 2 ^ 7 := field_eq 8 8 7
  omega

/-! ### PPUCTRL, PPUMASK, PPUSTATUS, OAMADDR and OAMDATA -/

/-- Settles O42, register by register. -/
theorem ppuRegisterWrites : Obligations.PpuRegisterWrites := by
  intro s a d low high
  have write {i : Nat} (h : a.toNat % 8 = i) : busWrite a d s = ppuRegWrite i d s := busWrite_ppu ⟨low, high, h⟩ d s
  refine ⟨fun h => ?_, write, write, write, fun h => ?_⟩
  · exact ⟨_, write h, toNat_ctrlBits s.ppu.t d⟩
  · have step : s.ppu.oamAddr + 1#8 = BitVec.ofNat 8 (s.ppu.oamAddr.toNat + 1) := by
      rw [BitVec.ofNat_add, BitVec.ofNat_toNat, BitVec.setWidth_eq]
    rw [write h, ← step]
    exact ⟨_, rfl, s.ppu.writeOam_oamAt d⟩

/-- The byte PPUSTATUS answers: the three flags over five drawn bits (R532). -/
theorem toNat_statusRead (s : State) :
    (statusRead s).1.toNat = 128 * s.ppu.vblank.toNat + 64 * s.ppu.spr0hit.toNat + 32 * s.ppu.sprOverflow.toNat +
      ((Config.drawByte s.draws 2).setWidth 5).toNat := by
  simp only [statusRead, toNat_append_add, BitVec.toNat_ofBool]
  omega

/-- Settles O43, register by register. -/
theorem ppuRegisterReads : Obligations.PpuRegisterReads := by
  intro s a low high
  have read {i : Nat} (h : a.toNat % 8 = i) : busRead a s = ppuRegRead i s := busRead_ppu ⟨low, high, h⟩ s
  refine ⟨fun h => ?_, read, fun h => ?_⟩
  · rw [read h]
    have byte := toNat_statusRead s
    have drawn := ((Config.drawByte s.draws 2).setWidth 5).isLt
    have vblank := s.ppu.vblank.toNat_le
    have hit := s.ppu.spr0hit.toNat_le
    have overflow := s.ppu.sprOverflow.toNat_le
    simp only [ppuRegRead]
    exact ⟨by omega, by omega, by omega, rfl⟩
  · simp only [List.mem_cons, List.not_mem_nil, or_false] at h
    obtain h | h | h | h | h := h <;> rw [read h] <;> rfl

/-! ### The write pairs of PPUSCROLL and PPUADDR -/

/-- The toggle clear again, as it was. -/
theorem Ppu.toggle_cleared {p : Ppu} (h : p.w = false) (t v : Scroll) (x : BitVec 3) :
    { p with t := t, v := v, fineX := x, w := false } = { p with t := t, v := v, fineX := x } := by
  rw [← h]

theorem Ppu.writeScroll_first {p : Ppu} (h : p.w = false) (d : Byte) :
    p.writeScroll d = { p with t := scrollX p.t d, fineX := d.setWidth 3, w := true } := by
  simp only [Ppu.writeScroll, h]
  rfl

theorem Ppu.writeScroll_second {p : Ppu} (h : p.w = true) (d : Byte) :
    p.writeScroll d = { p with t := scrollY p.t d, w := false } := by
  simp only [Ppu.writeScroll, h]
  rfl

theorem Ppu.writeAddr_first {p : Ppu} (h : p.w = false) (d : Byte) :
    p.writeAddr d = { p with t := addrHigh p.t d, w := true } := by
  simp only [Ppu.writeAddr, h]
  rfl

theorem Ppu.writeAddr_second {p : Ppu} (h : p.w = true) (d : Byte) :
    p.writeAddr d = { p with t := addrLow p.t d, v := addrLow p.t d, w := false } := by
  simp only [Ppu.writeAddr, h]
  rfl

section
variable {p : Ppu} (h : p.w = false) (d e : Byte)
include h

theorem Ppu.scroll_scroll :
    (p.writeScroll d).writeScroll e = { p with t := scrollY (scrollX p.t d) e, fineX := d.setWidth 3 } := by
  rw [Ppu.writeScroll_first h, Ppu.writeScroll_second rfl]
  exact Ppu.toggle_cleared h _ p.v _

theorem Ppu.addr_addr :
    (p.writeAddr d).writeAddr e =
      { p with t := addrLow (addrHigh p.t d) e, v := addrLow (addrHigh p.t d) e } := by
  rw [Ppu.writeAddr_first h, Ppu.writeAddr_second rfl]
  exact Ppu.toggle_cleared h _ _ p.fineX

theorem Ppu.scroll_addr :
    (p.writeScroll d).writeAddr e =
      { p with t := addrLow (scrollX p.t d) e, v := addrLow (scrollX p.t d) e, fineX := d.setWidth 3 } := by
  rw [Ppu.writeScroll_first h, Ppu.writeAddr_second rfl]
  exact Ppu.toggle_cleared h _ _ _

theorem Ppu.addr_scroll :
    (p.writeAddr d).writeScroll e = { p with t := scrollY (addrHigh p.t d) e } := by
  rw [Ppu.writeAddr_first h, Ppu.writeScroll_second rfl]
  exact Ppu.toggle_cleared h _ p.v p.fineX

end

theorem ppuRegWrite_scroll (d : Byte) (s : State) : ppuRegWrite 5 d s = s.setPpu (s.ppu.writeScroll d) := rfl

theorem ppuRegWrite_addr (d : Byte) (s : State) : ppuRegWrite 6 d s = s.setPpu (s.ppu.writeAddr d) := rfl

theorem State.setPpu_setPpu (s : State) (p q : Ppu) : (s.setPpu p).setPpu q = s.setPpu q := rfl

/-- PPUADDR's two bytes make an address of fourteen bits. -/
theorem addrLow_addrHigh (t : Scroll) (d e : Byte) :
    addrLow (addrHigh t d) e = BitVec.ofNat 15 (d.toNat % 64 * 256 + e.toNat) := by
  have low := e.isLt
  refine BitVec.eq_of_toNat_eq ?_
  rw [toNat_addrLow, toNat_addrHigh, BitVec.toNat_ofNat]
  omega

/-- The nametable bits that a PPUADDR write leaves in t. -/
theorem addrHigh_nametable (t : Scroll) (d : Byte) : (addrHigh t d).toNat / 1024 % 4 = d.toNat / 4 % 4 := by
  have := toNat_addrHigh t d
  omega

/-- Settles O44, each pair from its two writes of t. -/
theorem scrollAndAddressWritePairs : Obligations.ScrollAndAddressWritePairs := by
  intro s a a' b b' d e ha ha' hb hb' hw
  have fineX : (d.setWidth 3).toNat = d.toNat % 8 := BitVec.toNat_setWidth ..
  obtain ⟨coarseX, kept⟩ := toNat_scrollX s.ppu.t d
  simp only [busWrite_ppu ha, busWrite_ppu ha', busWrite_ppu hb, busWrite_ppu hb', ppuRegWrite_scroll, ppuRegWrite_addr,
    State.setPpu_ppu, State.setPpu_setPpu, Ppu.scroll_scroll hw, Ppu.addr_addr hw, Ppu.scroll_addr hw,
    Ppu.addr_scroll hw]
  refine ⟨⟨_, _, rfl, ?_⟩, ?_, ⟨_, _, rfl, ?_, fineX⟩, ⟨_, rfl, ?_⟩, ?_, ?_⟩
  · obtain ⟨x, y, nametable, fineY⟩ := toNat_scrollY (scrollX s.ppu.t d) e
    exact ⟨x.trans coarseX, fineX, y, fineY, nametable.trans (by omega)⟩
  · rw [addrLow_addrHigh]
  · rw [toNat_addrLow]
    omega
  · obtain ⟨x, y, nametable, fineY⟩ := toNat_scrollY (addrHigh s.ppu.t d) e
    have high := toNat_addrHigh s.ppu.t d
    exact ⟨x.trans (by omega), y, fineY, nametable.trans (addrHigh_nametable s.ppu.t d)⟩
  · rw [Ppu.writeScroll_first hw]
  · rw [Ppu.writeAddr_first hw]

end Sys2Proof.Machine
end

section
/-!
PROOFS. PPUDATA: a store in PPU space, a buffered read, and the step of v (65_ppu.md R542, R543, R550 to R552).
-/

namespace Sys2Proof.Machine

open Sys2Proof.Claims

/-- v after a PPUDATA access (R542). -/
theorem Ppu.v_add_increment (p : Ppu) :
    p.v + p.increment = BitVec.ofNat 15 (p.v.toNat + if p.ctrl.toNat / 4 % 2 = 1 then 32 else 1) := by
  have bit2 : bit p.ctrl 2 = decide (p.ctrl.toNat / 4 % 2 = 1) := bit_eq_decide p.ctrl 2
  rw [BitVec.ofNat_add, BitVec.ofNat_toNat, BitVec.setWidth_eq, Ppu.increment, bit2]
  by_cases h : p.ctrl.toNat / 4 % 2 = 1
  · rw [if_pos h, if_pos (decide_eq_true h)]
  · rw [if_neg h, if_neg (mt of_decide_eq_true h)]

theorem Ppu.dataAddress_eq (p : Ppu) : p.dataAddress = BitVec.ofNat 14 p.v.toNat := (BitVec.ofNat_toNat ..).symm

/-! ### A write of each region of PPU space, read through any address -/

theorem Mapper.chrWrite_chrOffset (m : Mapper) (a b : VAddr) (d : Byte) :
    (m.chrWrite a d).chrOffset b = m.chrOffset b := by
  unfold Mapper.chrWrite
  split <;> rfl

theorem Mapper.chrWrite_mirroring (m : Mapper) (a : VAddr) (d : Byte) : (m.chrWrite a d).mirroring = m.mirroring := by
  unfold Mapper.chrWrite
  split <;> rfl

/-- CHR RAM reads back what was written; CHR ROM keeps its byte (R627). -/
theorem Mapper.chrRead_chrWrite (m : Mapper) (a b : VAddr) (d : Byte) :
    (m.chrWrite a d).chrRead b =
      if m.chrIsRam = true ∧ m.chrOffset b = m.chrOffset a then d else m.chrRead b := by
  unfold Mapper.chrRead
  rw [Mapper.chrWrite_chrOffset]
  unfold Mapper.chrWrite
  by_cases ram : m.chrIsRam = true
  · rw [if_pos ram, if_congr (and_iff_right ram) rfl rfl]
    exact Memory.read_write_none (m := m.chr) ..
  · rw [if_neg ram, if_neg fun h => ram h.1]

/-- Every PPU address after a write of CHR at `a`. -/
theorem ppuRead_chrWrite (m : Mapper) (p : Ppu) (a b : VAddr) (d : Byte) :
    ppuRead (m.chrWrite a d) p b =
      if videoCell m b = (0, m.chrOffset a) then (if m.chrIsRam then d else ppuRead m p b) else ppuRead m p b := by
  unfold ppuRead videoCell Ppu.nametableAt
  rw [Mapper.chrRead_chrWrite, Mapper.chrWrite_mirroring]
  split
  · by_cases ram : m.chrIsRam = true <;> simp [ram]
  · split <;> simp

/-- Every PPU address after a write of nametable RAM at index `k`. -/
theorem ppuRead_ciramWrite (m : Mapper) (p : Ppu) (k : Nat) (b : VAddr) (d : Byte) :
    ppuRead m { p with ciram := Memory.write none p.ciram k d } b =
      if videoCell m b = (1, k) then d else ppuRead m p b := by
  unfold ppuRead videoCell Ppu.nametableAt
  split
  · simp
  · split
    · simp only [Memory.read_write_none, Prod.mk.injEq, true_and]
    · simp [Ppu.paletteAt]

/-- Every PPU address after a write of palette RAM at index `k`. -/
theorem ppuRead_paletteWrite (m : Mapper) (p : Ppu) (k : Nat) (b : VAddr) (c : ColourIndex) :
    ppuRead m { p with palette := Memory.write none p.palette k c } b =
      if videoCell m b = (2, k) then c.setWidth 8 else ppuRead m p b := by
  unfold ppuRead videoCell Ppu.paletteAt
  split
  · simp
  · split
    · simp [Ppu.nametableAt]
    · simp only [Memory.read_write_none, Prod.mk.injEq, true_and]
      split <;> rfl

/-- The byte that a palette entry keeps of the byte written. -/
theorem paletteByte (d : Byte) : (d.setWidth 6).setWidth 8 = BitVec.ofNat 8 (d.toNat % 64) := by
  refine BitVec.eq_of_toNat_eq ?_
  simp only [BitVec.toNat_setWidth, BitVec.toNat_ofNat]

/-- What PPU space reads after a write of `d` at `a` (R550): at the addresses of its cell the byte stored, six bits of
it in the palette, none in CHR ROM; elsewhere what it read before. -/
theorem ppuRead_ppuWrite (m : Mapper) (p : Ppu) (a b : VAddr) (d : Byte) :
    ppuRead (m.ppuWrite a d) (p.memWrite m a d) b =
      if videoCell m b = videoCell m a then
        (if a.toNat < 0x2000 then (if m.chrIsRam then d else ppuRead m p b)
          else if a.toNat < 0x3F00 then d else BitVec.ofNat 8 (d.toNat % 64))
      else ppuRead m p b := by
  unfold Mapper.ppuWrite Ppu.memWrite
  by_cases pattern : a.toNat < 0x2000
  · have cell : videoCell m a = (0, m.chrOffset a) := if_pos pattern
    simp only [if_pos pattern, cell, ppuRead_chrWrite]
  · by_cases nametable : a.toNat < 0x3F00
    · have cell : videoCell m a = (1, ntIndex m.mirroring (a.toNat % 0x1000)) :=
        (if_neg pattern).trans (if_pos nametable)
      simp only [if_neg pattern, if_pos nametable, cell, ppuRead_ciramWrite]
    · have cell : videoCell m a = (2, palIndex a) := (if_neg pattern).trans (if_neg nametable)
      simp only [if_neg pattern, if_neg nametable, cell, ppuRead_paletteWrite, paletteByte]

/-! ### The frame of a write -/

theorem Mapper.ppuWrite_onlyChr (m : Mapper) (a : VAddr) (d : Byte) : ∃ q, m.ppuWrite a d = { m with chr := q } := by
  unfold Mapper.ppuWrite Mapper.chrWrite
  split
  · split <;> exact ⟨_, rfl⟩
  · exact ⟨m.chr, rfl⟩

theorem Ppu.writeData_effect (m : Mapper) (p : Ppu) (d : Byte) :
    ∃ n q, p.writeData m d = { p with v := p.v + p.increment, ciram := n, palette := q } := by
  unfold Ppu.writeData Ppu.memWrite
  split
  · exact ⟨p.ciram, p.palette, rfl⟩
  · split
    · exact ⟨_, p.palette, rfl⟩
    · exact ⟨p.ciram, _, rfl⟩

theorem ppuRegWrite_data (d : Byte) (s : State) :
    ppuRegWrite 7 d s =
      (s.setPpu (s.ppu.writeData s.mapper d)).setMapper (s.mapper.ppuWrite s.ppu.dataAddress d) := rfl

/-- Only the PPU's memories count for a read of PPU space, not v. -/
theorem ppuRead_writeData (m n : Mapper) (p : Ppu) (b : VAddr) (d : Byte) :
    ppuRead n (p.writeData m d) b = ppuRead n (p.memWrite m p.dataAddress d) b := rfl

/-- Settles O45: the store of `ppuRead_ppuWrite` at v, and v's step. -/
theorem ppuDataWriteStoresAndSteps : Obligations.PpuDataWriteStoresAndSteps := by
  intro s c d hc
  simp only [busWrite_ppu hc, ppuRegWrite_data, ← Ppu.dataAddress_eq, ← Ppu.v_add_increment]
  obtain ⟨q, hq⟩ := s.mapper.ppuWrite_onlyChr s.ppu.dataAddress d
  obtain ⟨n, r, hr⟩ := s.ppu.writeData_effect s.mapper d
  refine ⟨fun b => ?_, rfl, n, r, q, ?_⟩
  · exact (ppuRead_writeData ..).trans (ppuRead_ppuWrite ..)
  · rw [hq, hr]
    rfl

/-! ### Reads -/

/-- A palette address with bit 12 cleared is the nametable address under it (R543). -/
theorem under_palette {a : VAddr} (h : 0x3F00 ≤ a.toNat) : a &&& 0x2FFF#14 = a - 0x1000#14 := by
  have low : (a &&& 0x2FFF#14).toNat / 2 ^ 0 % 2 ^ 12 = a.toNat / 2 ^ 0 % 2 ^ 12 := field_eq 0 0 12
  have cleared : (a &&& 0x2FFF#14).toNat / 2 ^ 12 % 2 ^ 1 = (0#1).toNat / 2 ^ 0 % 2 ^ 1 := field_eq 12 0 1
  have top : (a &&& 0x2FFF#14).toNat / 2 ^ 13 % 2 ^ 1 = a.toNat / 2 ^ 13 % 2 ^ 1 := field_eq 13 13 1
  have := a.isLt
  refine BitVec.eq_of_toNat_eq ?_
  rw [BitVec.toNat_sub]
  simp only [BitVec.toNat_ofNat] at cleared ⊢
  omega

theorem ppuRead_palette {a : VAddr} (h : 0x3F00 ≤ a.toNat) (m : Mapper) (p : Ppu) :
    (ppuRead m p a).toNat = (p.paletteAt a).toNat := by
  unfold ppuRead
  rw [if_neg (by omega), if_neg (by omega), BitVec.toNat_setWidth]
  exact Nat.mod_eq_of_lt (by omega)

theorem dataRead_buffered {s : State} (h : s.ppu.dataAddress.toNat < 0x3F00) :
    dataRead s = (s.ppu.readBuf, s.setPpu { s.ppu with
      readBuf := ppuRead s.mapper s.ppu s.ppu.dataAddress, v := s.ppu.v + s.ppu.increment }) := if_pos h

theorem dataRead_palette {s : State} (h : 0x3F00 ≤ s.ppu.dataAddress.toNat) :
    (dataRead s).1.toNat % 64 = (ppuRead s.mapper s.ppu s.ppu.dataAddress).toNat ∧
      (dataRead s).2 = (s.setPpu { s.ppu with
        readBuf := ppuRead s.mapper s.ppu (s.ppu.dataAddress - 0x1000#14)
        v := s.ppu.v + s.ppu.increment }).countDraw := by
  rw [ppuRead_palette h, ← under_palette h]
  simp only [dataRead]
  rw [if_neg (Nat.not_lt.mpr h)]
  refine ⟨?_, rfl⟩
  rw [toNat_append_add]
  omega

/-- Settles O46, by the region of v. -/
theorem ppuDataReadIsBuffered : Obligations.PpuDataReadIsBuffered := by
  intro s c hc
  have read : busRead c s = dataRead s := busRead_ppu hc s
  simp only [read, ← Ppu.dataAddress_eq, ← Ppu.v_add_increment]
  exact ⟨dataRead_buffered, dataRead_palette⟩

end Sys2Proof.Machine
end

section
/-!
PROOFS. Decoding and encoding (30_encoding.md R130 to R140), what a step fetches and runs, and the undefined opcodes
(49_unofficial.md R440 to R442).
-/

namespace Sys2Proof

/-! ### The opcode map, entry by entry -/

/-- The instruction an entry makes of an operand: of the byte `b` or of the address `a`, as the entry has one. -/
def Row.instr (b : Byte) (a : Addr) : Row → Instr
  | .f1 i => i
  | .f2 make => make b
  | .f3 make => make a

/-- The opcode and the operand bytes of that instruction, low byte first (R132). -/
def Row.bytes (op b : Byte) (a : Addr) : Row → List Byte
  | .f1 _ => [op]
  | .f2 _ => [op, b]
  | .f3 _ => [op, lo8 a, hi8 a]

theorem Row.head?_bytes_append (op b : Byte) (a : Addr) (r : Row) (rest : List Byte) :
    (r.bytes op b a ++ rest).head? = some op := by
  cases r <;> rfl

/-- The values of a function of a byte, by the byte's nibbles, as the opcode map is laid out (R135). -/
def nibbleTable {α : Type} (f : Byte → α) : List (List α) :=
  (List.range 16).map fun hi => (List.range 16).map fun lo => f (BitVec.ofNat 8 (16 * hi + lo))

/-- Two functions of a byte agree when their tables do. -/
theorem eq_of_nibbleTable_eq {α : Type} {f g : Byte → α} (tables : nibbleTable f = nibbleTable g) (op : Byte) :
    f op = g op := by
  have row := List.map_inj_left.mp tables (op.toNat / 16) (List.mem_range.mpr (by omega))
  have entry := List.map_inj_left.mp row (op.toNat % 16) (List.mem_range.mpr (by omega))
  rwa [Nat.div_add_mod, BitVec.ofNat_toNat, BitVec.setWidth_eq] at entry

/-- The encoder gives each entry's instruction back its opcode and its operand (R135). -/
theorem encode_rowOf (op b : Byte) (a : Addr) : encode ((rowOf op).instr b a) = (rowOf op).bytes op b a :=
  eq_of_nibbleTable_eq (f := fun op => encode ((rowOf op).instr b a)) (g := fun op => (rowOf op).bytes op b a) rfl op

/-- An entry's bytes, with those its operation reads itself, are as many as its mode has (R135, R140). -/
theorem length_rowOf (op b : Byte) (a : Addr) :
    ((rowOf op).bytes op b a).length + ((rowOf op).instr b a).bytesReadLater = lengthOf op :=
  eq_of_nibbleTable_eq
    (f := fun op => ((rowOf op).bytes op b a).length + ((rowOf op).instr b a).bytesReadLater) (g := lengthOf) rfl op

/-! ### The decoder, by the entry of the opcode -/

theorem decode_of_f1 {op : Byte} {i : Instr} (row : rowOf op = .f1 i) (rest : List Byte) :
    decode (op :: rest) = .ok (i, rest) := by
  simp only [decode, row]

theorem decode_of_f2 {op : Byte} {make : Byte → Instr} (row : rowOf op = .f2 make) (b : Byte) (rest : List Byte) :
    decode (op :: b :: rest) = .ok (make b, rest) := by
  simp only [decode, row]

theorem decode_of_f3 {op : Byte} {make : Addr → Instr} (row : rowOf op = .f3 make) (b1 b2 : Byte) (rest : List Byte) :
    decode (op :: b1 :: b2 :: rest) = .ok (make (word b2 b1), rest) := by
  simp only [decode, row]

/-- Three bytes are always enough: every opcode has an entry (R131). -/
theorem decode_three_bytes (op b1 b2 : Byte) (rest : List Byte) :
    ∃ i r, decode (op :: b1 :: b2 :: rest) = .ok (i, r) := by
  cases row : rowOf op with
  | f1 i => exact ⟨_, _, decode_of_f1 row _⟩
  | f2 make => exact ⟨_, _, decode_of_f2 row b1 _⟩
  | f3 make => exact ⟨_, _, decode_of_f3 row b1 b2 rest⟩

end Sys2Proof

namespace Sys2Proof.Machine

/-! ### The bytes an instruction is made from -/

@[simp] theorem lo8_word (hi lo : Byte) : lo8 (word hi lo) = lo := by
  refine BitVec.eq_of_toNat_eq ?_
  rw [lo8, BitVec.toNat_setWidth, toNat_word]
  omega

@[simp] theorem hi8_word (hi lo : Byte) : hi8 (word hi lo) = hi := by
  refine BitVec.eq_of_toNat_eq ?_
  rw [hi8, BitVec.toNat_setWidth, BitVec.toNat_ushiftRight, toNat_word, Nat.shiftRight_eq_div_pow]
  omega

/-- Two operand bytes are the halves of the address they make (R82, R132). -/
theorem MadeFrom.of_word {op : Byte} {make : Addr → Instr} (row : rowOf op = .f3 make) (b1 b2 : Byte) :
    MadeFrom (make (word b2 b1)) [op, b1, b2] := by
  have made := MadeFrom.f3 row (word b2 b1)
  rwa [lo8_word, hi8_word] at made

/-- An instruction and its bytes are an entry's, for some operand. -/
theorem MadeFrom.entry {i : Instr} {bytes : List Byte} (made : MadeFrom i bytes) :
    ∃ op b a, i = (rowOf op).instr b a ∧ bytes = (rowOf op).bytes op b a := by
  cases made with
  | f1 row => exact ⟨_, 0#8, 0#16, by rw [row]; exact ⟨rfl, rfl⟩⟩
  | f2 row b => exact ⟨_, b, 0#16, by rw [row]; exact ⟨rfl, rfl⟩⟩
  | f3 row a => exact ⟨_, 0#8, a, by rw [row]; exact ⟨rfl, rfl⟩⟩

/-- With `madeFrom_encode`: an instruction is made from its own bytes and from no others. -/
theorem MadeFrom.eq_encode {i : Instr} {bytes : List Byte} (made : MadeFrom i bytes) : bytes = encode i := by
  obtain ⟨op, b, a, rfl, rfl⟩ := made.entry
  exact (encode_rowOf op b a).symm

/-- The number of bytes is the one that R140 gives the opcode at their front. -/
theorem MadeFrom.length_eq {i : Instr} {bytes rest tail : List Byte} {op : Byte} (made : MadeFrom i bytes)
    (front : bytes ++ rest = op :: tail) : bytes.length + i.bytesReadLater = lengthOf op := by
  obtain ⟨op', b, a, rfl, rfl⟩ := made.entry
  have same : some op' = some op := by
    rw [← Row.head?_bytes_append op' b a (rowOf op') rest, front, List.head?_cons]
  cases same
  exact length_rowOf op b a

/-- The decoder takes the bytes an instruction is made from, and leaves the rest. -/
theorem MadeFrom.decode {i : Instr} {bytes : List Byte} (made : MadeFrom i bytes) (rest : List Byte) :
    decode (bytes ++ rest) = .ok (i, rest) := by
  cases made with
  | f1 row => exact decode_of_f1 row rest
  | f2 row b => exact decode_of_f2 row b rest
  | f3 row a =>
    have decoded := decode_of_f3 row (lo8 a) (hi8 a) rest
    rwa [word_hi8_lo8] at decoded

/-- Whatever the decoder answers is made from the bytes it took. -/
theorem madeFrom_of_decode {bytes rest : List Byte} {i : Instr} (h : decode bytes = .ok (i, rest)) :
    ∃ taken, MadeFrom i taken ∧ bytes = taken ++ rest := by
  cases bytes with
  | nil => cases h
  | cons op tail =>
    cases row : rowOf op with
    | f1 j =>
      rw [decode_of_f1 row] at h
      cases h
      exact ⟨[op], .f1 row, rfl⟩
    | f2 make =>
      match tail with
      | [] => simp [decode, row] at h
      | b :: tail =>
        rw [decode_of_f2 row] at h
        cases h
        exact ⟨[op, b], .f2 row b, rfl⟩
    | f3 make =>
      match tail with
      | [] | [_] => simp [decode, row] at h
      | b1 :: b2 :: tail =>
        rw [decode_of_f3 row] at h
        cases h
        exact ⟨[op, b1, b2], .of_word row b1 b2, rfl⟩

/-- Settles O1: an instruction is made from its encoding, and the decoder takes that. -/
theorem decodeOfEncode : Obligations.DecodeOfEncode := fun i rest => (madeFrom_encode i).decode rest

/-- Settles O2: what the decoder answers is made from the bytes taken, and those are its encoding. -/
theorem encodeOfDecode : Obligations.EncodeOfDecode := by
  refine ⟨decode_three_bytes, fun bytes i rest decoded => ?_⟩
  obtain ⟨taken, made, rfl⟩ := madeFrom_of_decode decoded
  rw [← made.eq_encode]
  exact ⟨rfl, fun op tail front => made.length_eq front⟩

/-- Settles O3: each word is the encoding of the instruction named. -/
theorem wordsDecodeAsTheMapSays : Obligations.WordsDecodeAsTheMapSays :=
  ⟨decodeOfEncode (.ldaImm 0x80#8) [], decodeOfEncode (.staIzy 0x10#8) [], decodeOfEncode (.adcAbx 0x1234#16) [],
    decodeOfEncode (.bitAbs 0x2002#16) [], decodeOfEncode .rorAcc [], decodeOfEncode (.cpxImm 0x05#8) [],
    decodeOfEncode (.bne 0xFD#8) [], decodeOfEncode (.jmpInd 0x10FF#16) [], decodeOfEncode .php [],
    decodeOfEncode (.laxZp 0x20#8) [], decodeOfEncode .undef02 []⟩

/-! ### What a fetch reads and how far it goes -/

@[simp] theorem fetchByte_pc (s : State) : (fetchByte s).2.pc = s.pc + 1#16 := by rw [fetchByte_eq]; rfl

@[simp] theorem fetchByte_params (s : State) : (fetchByte s).2.params = s.params := by simp [fetchByte_eq]

@[simp] theorem fetchByte_remainingCycles (s : State) :
    (fetchByte s).2.remainingCycles = s.remainingCycles - 1 := by simp [fetchByte_eq]

/-- The fetch of `bytes` from `s` answers `r`: the instruction they make, with the pc past them and a tick spent on
each (R131). -/
structure Fetches (s : State) (bytes : List Byte) (r : Instr × State) : Prop where
  made : MadeFrom r.1 bytes
  opcode : (fetchByte s).1 ∈ bytes.head?
  pc : r.2.pc = s.pc + BitVec.ofNat 16 bytes.length
  remainingCycles : r.2.remainingCycles = s.remainingCycles - bytes.length

/-- A fetch reads the opcode and the operand bytes its row has, wherever they are read from. -/
theorem fetchInstr_fetches (s : State) : Fetches s (fetchedBytes s) (fetchInstr s) := by
  cases row : rowOf (fetchByte s).1 with
  | f1 i =>
    simp only [fetchedBytes, fetchInstr, row]
    exact ⟨.f1 row, rfl, fetchByte_pc s, fetchByte_remainingCycles s⟩
  | f2 make =>
    simp only [fetchedBytes, fetchInstr, row]
    exact ⟨.f2 row _, rfl, by simp [BitVec.add_assoc], by simp [sub_sub]⟩
  | f3 make =>
    simp only [fetchedBytes, fetchInstr, row]
    exact ⟨.of_word row _ _, rfl, by simp [BitVec.add_assoc], by simp [sub_sub]⟩

/-- Settles O4: the bytes fetched make the instruction fetched, so it is the one they decode to. -/
theorem stepRunsDecodedInstruction : Obligations.StepRunsDecodedInstruction := by
  intro s i rest loaded nmi irq decoded handler
  obtain ⟨made, opcode, pc, remainingCycles⟩ := fetchInstr_fetches s.opened
  have fetched := made.decode []
  rw [List.append_nil, decoded] at fetched
  cases fetched
  rw [made.eq_encode] at opcode pc remainingCycles
  have kept : s.opened.params.removes (fetchByte s.opened).1 = false := by
    rw [State.opened_params]
    exact handler _ opcode
  refine ⟨rfl, rfl, ?_, ?_, remainingCycles⟩
  · rw [step_of_quiet loaded nmi irq, runInstr_of_handler kept]
  · rw [pc, State.opened_pc]

/-! ### Undefined opcodes -/

open Sys2Proof.Claims

theorem undefinedOpcode_of_nop {s : State} (policy : s.params.undefinedPolicy = .nop) (op : Byte) :
    undefinedOpcode op s = .next ((tick s).emit (.undefinedOpcode op (s.pc - 1#16))) := by
  simp only [undefinedOpcode, policy]

theorem undefinedOpcode_of_fault {s : State} (policy : s.params.undefinedPolicy = .fault) (op : Byte) :
    undefinedOpcode op s = .fault (.undefinedOpcode op (s.pc - 1#16)) := by
  simp only [undefinedOpcode, policy]

/-- Under the nop policy there is a tick and a diagnostic (R440). -/
theorem undefinedOpcode_actsAsNoOp {s : State} (policy : s.params.undefinedPolicy = .nop) (op : Byte) :
    ActsAsNoOp (undefinedOpcode op s) op s := by
  unfold ActsAsNoOp
  refine ⟨_, undefinedOpcode_of_nop policy op, ?_, SameBytes.of_eq (by simp) (by simp) (by simp), ?_, ?_⟩
  · constructor <;> simp
  · constructor <;> simp
  · simp

/-- An instruction that does what undefined opcodes do follows their policy. -/
theorem undefined_of_exec {i : Instr} {op : Byte} {s : State} (meaning : exec i s = undefinedOpcode op s) :
    Undefined i op s := by
  unfold Undefined
  rw [meaning]
  exact ⟨fun policy => undefinedOpcode_actsAsNoOp policy op, fun policy => undefinedOpcode_of_fault policy op⟩

/-- A step that fetches an opcode which UNOFFICIAL_SET leaves out runs it as an undefined one (R138, R420). -/
theorem step_of_removed {s : State} (loaded : s.cartLoaded = true) (nmi : s.nmiPending = false)
    (irq : s.irqDue = false) (removed : s.params.removes (fetchByte s.opened).1 = true) :
    step s = undefinedOpcode (fetchByte s.opened).1 (fetchByte s.opened).2 := by
  rw [step_of_quiet loaded nmi irq, runInstr_of_removed (by rwa [State.opened_params])]

/-- Settles O41: each of the 25 means `undefinedOpcode` of its byte, and a step runs a removed opcode so. -/
theorem undefinedOpcodesFollowTheirPolicy : Obligations.UndefinedOpcodesFollowTheirPolicy := by
  intro s
  iterate 25 refine ⟨undefined_of_exec rfl, ?_⟩
  intro loaded nmi irq f removed
  have pc : f.2.pc = s.pc + 1#16 := by rw [fetchByte_pc, State.opened_pc]
  have params : f.2.params = s.params := by rw [fetchByte_params, State.opened_params]
  rw [step_of_removed loaded nmi irq removed]
  refine ⟨pc, fetchByte_remainingCycles _, fun policy => ?_, fun policy => ?_⟩
  · exact undefinedOpcode_actsAsNoOp (by rwa [params]) f.1
  · rw [undefinedOpcode_of_fault (by rwa [params]), pc, BitVec.add_sub_cancel]

end Sys2Proof.Machine
end

section
/-!
PROOFS. The addressing modes (40_addressing_modes.md): page crosses, the effective address of each mode and the ticks it
takes.
-/

namespace Sys2Proof.Machine

open Sys2Proof.Claims

/-! ### Page crosses (R181) -/

/-- The mask of a high byte keeps the page number, modulo the 256 pages. -/
theorem and_0xFF00 (n : Nat) : n &&& 0xFF00 = n / 256 % 256 * 256 := by
  have mask : n / 2 ^ 8 &&& (2 ^ 8 - 1) = n / 2 ^ 8 % 2 ^ 8 := Nat.and_two_pow_sub_one_eq_mod _ 8
  have parts : (n &&& 0xFF00) / 2 ^ 8 = n / 2 ^ 8 &&& 0xFF00 / 2 ^ 8 := Nat.and_div_two_pow
  have low : (n &&& 0xFF00) % 2 ^ 8 = n % 2 ^ 8 &&& 0xFF00 % 2 ^ 8 := Nat.and_mod_two_pow
  simp only [Nat.reducePow, Nat.reduceSub, Nat.reduceDiv, Nat.reduceMod, Nat.and_zero] at mask parts low
  omega

theorem cross_iff (a : Addr) (i : Byte) : cross a i = true ↔ (a.toNat + i.toNat) / 256 ≠ a.toNat / 256 :=
  decide_eq_true_iff

/-- Settles O21: both sides compare the pages of the base and of the untruncated sum, which is at most one page on, so
the sum's page is another one modulo 256 too. -/
theorem pageCrossIsAHighByteChange : Obligations.PageCrossIsAHighByteChange := by
  intro a i
  rw [cross_iff, and_0xFF00, and_0xFF00]
  omega

theorem pageTicks_eq (a : Addr) (i : Byte) : pageTicks a i = if cross a i then 1 else 0 := by
  simp only [pageTicks, cross_iff, ne_eq, ite_not, eq_comm (a := a.toNat / 256)]

/-! ### Effective addresses in whole numbers (R185 to R194) -/

theorem zext16_eq_ofNat (b : Byte) : zext16 b = BitVec.ofNat 16 b.toNat := by
  rw [zext16, ← BitVec.ofNat_toNat]

theorem add_zext16 (a : Addr) (i : Byte) : a + zext16 i = BitVec.ofNat 16 (a.toNat + i.toNat) := by
  rw [BitVec.ofNat_add, ← zext16_eq_ofNat, BitVec.ofNat_toNat, BitVec.setWidth_eq]

/-- The pointer's two bytes, with the wrap of both in whole numbers (R188, R189). -/
theorem zeroPagePointer_eq_pointerAt {b : Byte} {n : Nat} (at' : b.toNat = n % 256) (s : State) :
    zeroPagePointer b s = (pointerAt s n, ticks 2 s) := by
  have next : (b + 1#8).toNat = (n + 1) % 256 := by
    rw [BitVec.toNat_add, at']
    exact Nat.mod_add_mod n 256 1
  rw [zeroPagePointer_eq, next, at', pointerAt]

/-- The ticks an indexed mode adds: on a page cross in the read class, always in the others (R189, R191 to R194). -/
def indexTicks (c : OpClass) (a : Addr) (i : Byte) : Nat :=
  match c with
  | .read => pageTicks a i
  | .write | .rmw => 1

theorem indexTicks_eq (c : OpClass) (a : Addr) (i : Byte) :
    indexTicks c a i = if c = .read then pageTicks a i else 1 := by
  cases c <;> rfl

theorem penalty_eq_indexTicks (c : OpClass) (a : Addr) (i : Byte) (s : State) :
    penalty c a i s = ticks (indexTicks c a i) s := by
  rw [penalty_eq, indexTicks_eq, pageTicks_eq]

/-- The effective address of an operand, before it wraps to 16 bits (R185 to R194). -/
def operandAddress (o : Operand) (s : State) : Nat :=
  match o with
  | .zp b => b.toNat
  | .zpx b => (b.toNat + s.x.toNat) % 256
  | .zpy b => (b.toNat + s.y.toNat) % 256
  | .abs a => a.toNat
  | .abx a => a.toNat + s.x.toNat
  | .aby a => a.toNat + s.y.toNat
  | .izx b => (pointerAt s (b.toNat + s.x.toNat)).toNat
  | .izy b => (pointerAt s b.toNat).toNat + s.y.toNat

/-- The ticks that finding the effective address takes after the operand bytes (R185 to R194). -/
def operandTicks (c : OpClass) (o : Operand) (s : State) : Nat :=
  match o with
  | .zp _ | .abs _ => 0
  | .zpx _ | .zpy _ => 1
  | .abx a => indexTicks c a s.x
  | .aby a => indexTicks c a s.y
  | .izx _ => 3
  | .izy b => indexTicks c (pointerAt s b.toNat) s.y + 2

/-- Finding an effective address: the address, and ticks alone. -/
theorem effectiveAddress_eq (c : OpClass) (o : Operand) (s : State) :
    effectiveAddress c o s = (BitVec.ofNat 16 (operandAddress o s), ticks (operandTicks c o s) s) := by
  cases o with
  | zp b => exact congrArg (·, s) (zext16_eq_ofNat b)
  | zpx b => exact congrArg (·, tick s) (by rw [zext16_eq_ofNat, BitVec.toNat_add]; rfl)
  | zpy b => exact congrArg (·, tick s) (by rw [zext16_eq_ofNat, BitVec.toNat_add]; rfl)
  | abs a => exact congrArg (·, s) (by simp [operandAddress])
  | abx a => simp only [effectiveAddress, add_zext16, penalty_eq_indexTicks, operandAddress, operandTicks]
  | aby a => simp only [effectiveAddress, add_zext16, penalty_eq_indexTicks, operandAddress, operandTicks]
  | izx b =>
    have pointer := zeroPagePointer_eq_pointerAt (BitVec.toNat_add b s.x) (tick s)
    simp only [effectiveAddress, pointer, operandAddress, operandTicks, BitVec.ofNat_toNat, BitVec.setWidth_eq]
    simp only [pointerAt, tick_ramAt]
    rfl
  | izy b =>
    have pointer := zeroPagePointer_eq_pointerAt (Nat.mod_eq_of_lt b.isLt).symm s
    simp only [effectiveAddress, pointer, add_zext16, penalty_eq_indexTicks, operandAddress, operandTicks, ticks_y,
      ← ticks_add]

/-- Settles O22: each mode's line is its case of `operandAddress` and `operandTicks`. -/
theorem effectiveAddressesAndTheirTicks : Obligations.EffectiveAddressesAndTheirTicks := by
  intro c s extra is
  have mode (o : Operand) : is o (operandAddress o s) (operandTicks c o s) :=
    ⟨by rw [effectiveAddress_eq], by rw [effectiveAddress_eq]⟩
  have indexed (a : Addr) (i : Byte) : extra a i = indexTicks c a i := (indexTicks_eq c a i).symm
  refine ⟨fun b => ⟨mode (.zp b), mode (.zpx b), mode (.zpy b), mode (.izx b), ?_⟩,
    fun a => ⟨mode (.abs a), ?_, ?_⟩⟩
  · rw [indexed, Nat.add_comm 2]
    exact mode (.izy b)
  · rw [indexed]
    exact mode (.abx a)
  · rw [indexed]
    exact mode (.aby a)

end Sys2Proof.Machine
end

section
/-!
PROOFS. How the operation classes complete (40_addressing_modes.md R195): one lemma for each of `Implied`, `Reads`,
`Writes` and `Modifies`.
-/

namespace Sys2Proof.Machine

open Sys2Proof.Claims

/-! ### The CPU's registers across accesses -/

/-- The CPU's registers stand in `t` as in `s`. -/
abbrev SameCpu (s t : State) : Prop := CpuIs t s.a s.x s.y s.sp s.pc s.p

theorem SameCpu.ticks (n : Nat) (s : State) : SameCpu s (ticks n s) := by
  constructor <;> simp

section
variable {t : State} {a x y sp : Byte} {pc : Addr} {p : Flags}

theorem CpuIs.tick (h : CpuIs t a x y sp pc p) : CpuIs (tick t) a x y sp pc p :=
  ⟨h.a, h.x, h.y, h.sp, h.pc, h.p⟩

theorem CpuIs.memRead (h : CpuIs t a x y sp pc p) (ea : Addr) : CpuIs (memRead ea t).2 a x y sp pc p := by
  constructor <;> simp [h.a, h.x, h.y, h.sp, h.pc, h.p]

theorem CpuIs.memWrite (h : CpuIs t a x y sp pc p) (ea : Addr) (v : Byte) :
    CpuIs (memWrite ea v t) a x y sp pc p := by
  constructor <;> simp [h.a, h.x, h.y, h.sp, h.pc, h.p]

theorem CpuIs.setP (h : CpuIs t a x y sp pc p) (q : Flags) : CpuIs (t.setP q) a x y sp pc q :=
  ⟨h.a, h.x, h.y, h.sp, h.pc, rfl⟩

end

/-! ### A register effect leaves the devices and the memories -/

theorem OnlyRegisters.devicesAs {s t : State} (h : OnlyRegisters s t) : DevicesAs s t := by
  unfold OnlyRegisters at h
  constructor <;> rw [h]

theorem OnlyRegisters.onlyRead {s t : State} (h : OnlyRegisters s t) : OnlyRead s t := by
  obtain ⟨ram, ppu, mapper, params, irqLine, cartLoaded⟩ := h.sameDevices
  exact ⟨⟨params, irqLine, cartLoaded, by rw [mapper]⟩, SameBytes.of_eq ram params mapper, mapper,
    ⟨by rw [ppu], by rw [ppu], by rw [ppu]⟩⟩

theorem Stored.onlyRegisters {ea : Addr} {v : Byte} {s t u : State} (h : Stored ea v s t) (h' : OnlyRegisters t u) :
    Stored ea v s u :=
  let same := h'.sameDevices
  h.registers same.ram same.params same.irqLine same.cartLoaded same.mapper same.ppu

/-- A register effect that starts from written flags is one register effect. -/
theorem OnlyRegisters.of_setP {s t : State} {p : Flags} (h : OnlyRegisters (s.setP p) t) : OnlyRegisters s t := h

/-! ### One rule per operation class -/

/-- Ticks and a register effect. -/
theorem implied_of_registers {n : Nat} {i : Instr} {s t : State} {E : State → Prop} (meaning : exec i s = .next t)
    (registers : OnlyRegisters (ticks n s) t) (effect : E t) : Implied n i s E :=
  ⟨t, meaning, effect, (Waited.ticks n s).registers registers,
    ((OnlyRead.ticks n s).trans registers.onlyRead).bytes⟩

/-- Finding an effective address leaves the registers and the memories. -/
theorem effectiveAddress_leaves (c : OpClass) (o : Operand) (s : State) :
    SameCpu s (effectiveAddress c o s).2 ∧ OnlyRead s (effectiveAddress c o s).2 := by
  rw [effectiveAddress_eq]
  exact ⟨SameCpu.ticks _ s, OnlyRead.ticks _ s⟩

/-- So does the read there. -/
theorem memRead_operand_leaves (c : OpClass) (o : Operand) (s : State) :
    let ea := effectiveAddress c o s
    SameCpu s (memRead ea.1 ea.2).2 ∧ OnlyRead s (memRead ea.1 ea.2).2 :=
  let ⟨cpu, read⟩ := effectiveAddress_leaves c o s
  ⟨cpu.memRead _, read.trans (memRead_onlyRead _ _)⟩

/-- The read class: the instruction does to the registers what its register effect does. -/
theorem reads_of_readOp {i : Instr} {o : Operand} {s : State} {f : Byte → State → State}
    {E : Byte → State → Prop} (meaning : exec i s = .next (readOp f o s)) (registers : ∀ m u, OnlyRegisters u (f m u))
    (effect : ∀ m u, SameCpu s u → E m (f m u)) : Reads i o s E :=
  let ⟨cpu, read⟩ := memRead_operand_leaves .read o s
  ⟨_, meaning, effect _ _ cpu, (registers _ _).devicesAs, read.trans (registers _ _).onlyRead⟩

/-- The write class: `f` gives the value stored, found after ticks alone. -/
theorem writes_of_writeOp {i : Instr} {o : Operand} {s : State} {f : State → Byte} {v : Byte} (ok : s.Ok)
    (meaning : exec i s = .next (writeOp f o s)) (value : ∀ u, SameCpu s u → f u = v) : Writes i o s v := by
  obtain ⟨cpu, read⟩ := effectiveAddress_leaves .write o s
  have stored : writeOp f o s = memWrite (effectiveAddress .write o s).1 v (effectiveAddress .write o s).2 := by
    simp only [writeOp, value _ cpu]
  refine ⟨_, meaning, ?_⟩
  rw [stored]
  exact ⟨cpu.memWrite _ _, ⟨rfl, rfl, rfl, rfl, rfl⟩,
    (memWrite_stored (ok.effectiveAddress .write o) _ v).after read⟩

/-- The rmw class when `f` gives `v m` and the flags `p m` for the byte `m` read. A store reads no flag, so the flags
can be written after it. -/
theorem rmwOp_eq {f : Byte → State → Byte × State} {g : Byte → State → State} {o : Operand} {s : State}
    {v : Byte → Byte} {p : Byte → Flags} (change : ∀ m u, u.p = s.p → f m u = (v m, u.setP (p m))) :
    rmwOp f g o s =
      let ea := effectiveAddress .rmw o s
      let r := memRead ea.1 ea.2
      g (v r.1) ((memWrite ea.1 (v r.1) (tick r.2)).setP (p r.1)) := by
  obtain ⟨cpu, -⟩ := memRead_operand_leaves .rmw o s
  simp only [rmwOp, change _ _ cpu.tick.p, memWrite_setP]

/-- The rmw class: after the store the instruction does to the registers what `g` does. -/
theorem modifies_of_rmwOp {i : Instr} {o : Operand} {s : State} {f : Byte → State → Byte × State}
    {g : Byte → State → State} {v : Byte → Byte} {p : Byte → Flags} {E : Byte → State → Prop} (ok : s.Ok)
    (meaning : exec i s = .next (rmwOp f g o s)) (change : ∀ m u, u.p = s.p → f m u = (v m, u.setP (p m)))
    (registers : ∀ m u, OnlyRegisters u (g m u))
    (effect : ∀ m u, CpuIs u s.a s.x s.y s.sp s.pc (p m) → E m (g (v m) u)) : Modifies i o s v E := by
  obtain ⟨cpu, read⟩ := memRead_operand_leaves .rmw o s
  have okRead := (ok.effectiveAddress .rmw o).memRead (effectiveAddress .rmw o s).1
  refine ⟨_, meaning.trans (congrArg _ (rmwOp_eq change)), effect _ _ ((cpu.tick.memWrite _ _).setP _), ?_, ?_⟩
  · exact (registers _ _).of_setP.devicesAs
  · exact ((memWrite_stored okRead.tick _ _).after (read.trans (OnlyRead.tick _))).onlyRegisters
      (registers _ _).of_setP

end Sys2Proof.Machine
end

section
/-!
PROOFS. The loads and stores (41_load_store.md), and the transfers, index steps and flag instructions (42_transfer.md,
43_arithmetic.md R265 to R268, 48_stack_flags_system.md R390 to R396).
-/

namespace Sys2Proof.Machine

open Sys2Proof.Claims

/-! ### Flags and steps of a byte in whole numbers -/

/-- Bit 7 of a byte is the byte's upper half (R11). -/
theorem bit_seven (m : Byte) : bit m 7 = decide (128 ≤ m.toNat) := by
  rw [bit_eq_decide, decide_eq_decide]
  omega

theorem bit_zero (m : Byte) : bit m 0 = bottom m := by
  rw [bit_eq_decide, pow_zero, Nat.div_one, bottom]

theorem eq_iff_toNat_eq (r m : Byte) : r = m ↔ r.toNat = m.toNat := BitVec.toNat_inj.symm

theorem setNZ_eq_nz (p : Flags) (v : Byte) : p.setNZ v = nz p v := by
  simp only [Flags.setNZ, nz, bit_seven, eq_iff_toNat_eq, BitVec.toNat_ofNat, Nat.zero_mod]

/-- N and Z written to a state whose registers are known (R11). -/
theorem CpuIs.setNZ {t : State} {a x y sp : Byte} {pc : Addr} {p : Flags} (h : CpuIs t a x y sp pc p) (v : Byte) :
    CpuIs (t.setNZ v) a x y sp pc (nz p v) := by
  rw [State.setNZ, h.p, setNZ_eq_nz]
  exact h.setP _

theorem add_one_eq_ofNat (m : Byte) : m + 1#8 = BitVec.ofNat 8 (m.toNat + 1) := by bv_omega

theorem sub_one_eq_ofNat (m : Byte) : m - 1#8 = BitVec.ofNat 8 (m.toNat + 255) := by bv_omega

/-! ### Writes of one register -/

section
variable {t : State} {a x y sp : Byte} {pc : Addr} {p : Flags}

theorem CpuIs.setA (h : CpuIs t a x y sp pc p) (v : Byte) : CpuIs (t.setA v) v x y sp pc p :=
  ⟨rfl, h.x, h.y, h.sp, h.pc, h.p⟩

theorem CpuIs.setX (h : CpuIs t a x y sp pc p) (v : Byte) : CpuIs (t.setX v) a v y sp pc p :=
  ⟨h.a, rfl, h.y, h.sp, h.pc, h.p⟩

theorem CpuIs.setY (h : CpuIs t a x y sp pc p) (v : Byte) : CpuIs (t.setY v) a x v sp pc p :=
  ⟨h.a, h.x, rfl, h.sp, h.pc, h.p⟩

theorem CpuIs.setSp (h : CpuIs t a x y sp pc p) (v : Byte) : CpuIs (t.setSp v) a x y v pc p :=
  ⟨h.a, h.x, h.y, rfl, h.pc, h.p⟩

end

theorem SameCpu.refl (s : State) : SameCpu s s := SameCpu.ticks 0 s

/-! ### Loads (R220 to R222, R422) -/

section
variable {i : Instr} {o : Operand} {s : State}

theorem reads_of_lda (meaning : exec i s = .next (readOp lda o s)) : Reads i o s (inA s) :=
  reads_of_readOp meaning (fun _ _ => rfl) fun m _ cpu => (cpu.setA m).setNZ m

theorem reads_of_ldx (meaning : exec i s = .next (readOp ldx o s)) : Reads i o s (inX s) :=
  reads_of_readOp meaning (fun _ _ => rfl) fun m _ cpu => (cpu.setX m).setNZ m

theorem reads_of_ldy (meaning : exec i s = .next (readOp ldy o s)) : Reads i o s (inY s) :=
  reads_of_readOp meaning (fun _ _ => rfl) fun m _ cpu => (cpu.setY m).setNZ m

theorem reads_of_lax (meaning : exec i s = .next (readOp lax o s)) :
    Reads i o s fun m t => CpuIs t m m s.y s.sp s.pc (nz s.p m) :=
  reads_of_readOp meaning (fun _ _ => rfl) fun m _ cpu => ((cpu.setA m).setX m).setNZ m

end

/-- Settles O24: every form is the read class with its register effect, or that effect on the operand byte. -/
theorem loadsWriteTheirRegister : Obligations.LoadsWriteTheirRegister := by
  intro s
  have same := SameCpu.refl s
  refine ⟨?ldaIzx, ?ldaZp, ?ldaImm, ?ldaAbs, ?ldaIzy, ?ldaZpx, ?ldaAby, ?ldaAbx, ?ldxImm, ?ldxZp, ?ldxAbs, ?ldxZpy,
    ?ldxAby, ?ldyImm, ?ldyZp, ?ldyAbs, ?ldyZpx, ?ldyAbx, ?laxIzx, ?laxZp, ?laxAbs, ?laxIzy, ?laxZpy, ?laxAby⟩
  case ldaImm => exact fun v => implied_of_registers rfl rfl ((same.setA v).setNZ v)
  case ldxImm => exact fun v => implied_of_registers rfl rfl ((same.setX v).setNZ v)
  case ldyImm => exact fun v => implied_of_registers rfl rfl ((same.setY v).setNZ v)
  case ldaIzx | ldaZp | ldaAbs | ldaIzy | ldaZpx | ldaAby | ldaAbx => exact fun _ => reads_of_lda rfl
  case ldxZp | ldxAbs | ldxZpy | ldxAby => exact fun _ => reads_of_ldx rfl
  case ldyZp | ldyAbs | ldyZpx | ldyAbx => exact fun _ => reads_of_ldy rfl
  case laxIzx | laxZp | laxAbs | laxIzy | laxZpy | laxAby => exact fun _ => reads_of_lax rfl

/-! ### Stores (R223 to R225, R423) -/

section
variable {i : Instr} {o : Operand} {s : State} (ok : s.Ok)
include ok

theorem writes_of_sta (meaning : exec i s = .next (writeOp (·.a) o s)) : Writes i o s s.a :=
  writes_of_writeOp ok meaning fun _ cpu => cpu.a

theorem writes_of_stx (meaning : exec i s = .next (writeOp (·.x) o s)) : Writes i o s s.x :=
  writes_of_writeOp ok meaning fun _ cpu => cpu.x

theorem writes_of_sty (meaning : exec i s = .next (writeOp (·.y) o s)) : Writes i o s s.y :=
  writes_of_writeOp ok meaning fun _ cpu => cpu.y

theorem writes_of_sax (meaning : exec i s = .next (writeOp (fun s => s.a &&& s.x) o s)) :
    Writes i o s (s.a &&& s.x) :=
  writes_of_writeOp ok meaning fun _ cpu => by rw [cpu.a, cpu.x]

end

/-- Settles O25: every form is the write class with its register. -/
theorem storesWriteTheirAddress : Obligations.StoresWriteTheirAddress := by
  intro s inv
  have ok := (State.inv_iff s).mp inv
  refine ⟨?staIzx, ?staZp, ?staAbs, ?staIzy, ?staZpx, ?staAby, ?staAbx, ?stxZp, ?stxAbs, ?stxZpy, ?styZp, ?styAbs,
    ?styZpx, ?saxIzx, ?saxZp, ?saxAbs, ?saxZpy⟩
  case staIzx | staZp | staAbs | staIzy | staZpx | staAby | staAbx => exact fun _ => writes_of_sta ok rfl
  case stxZp | stxAbs | stxZpy => exact fun _ => writes_of_stx ok rfl
  case styZp | styAbs | styZpx => exact fun _ => writes_of_sty ok rfl
  case saxIzx | saxZp | saxAbs | saxZpy => exact fun _ => writes_of_sax ok rfl

/-! ### Transfers, index steps and flags -/

/-- Settles O26: each form is one tick and its register effect. -/
theorem transfersIndexStepsAndFlags : Obligations.TransfersIndexStepsAndFlags := by
  intro s
  have same := SameCpu.refl s
  refine ⟨?tax, ?tay, ?txa, ?tya, ?tsx, ?txs, ?inx, ?iny, ?dex, ?dey, ?clc, ?sec, ?cli, ?sei, ?cld, ?sed, ?clv⟩
  case tax => exact implied_of_registers rfl rfl ((same.setX s.a).setNZ s.a).tick
  case tay => exact implied_of_registers rfl rfl ((same.setY s.a).setNZ s.a).tick
  case txa => exact implied_of_registers rfl rfl ((same.setA s.x).setNZ s.x).tick
  case tya => exact implied_of_registers rfl rfl ((same.setA s.y).setNZ s.y).tick
  case tsx => exact implied_of_registers rfl rfl ((same.setX s.sp).setNZ s.sp).tick
  case txs => exact implied_of_registers rfl rfl (same.setSp s.x).tick
  case inx =>
    rw [← add_one_eq_ofNat]
    exact implied_of_registers rfl rfl ((same.setX _).setNZ _).tick
  case iny =>
    rw [← add_one_eq_ofNat]
    exact implied_of_registers rfl rfl ((same.setY _).setNZ _).tick
  case dex =>
    rw [← sub_one_eq_ofNat]
    exact implied_of_registers rfl rfl ((same.setX _).setNZ _).tick
  case dey =>
    rw [← sub_one_eq_ofNat]
    exact implied_of_registers rfl rfl ((same.setY _).setNZ _).tick
  case clc | sec | cli | sei | cld | sed | clv => exact implied_of_registers rfl rfl (same.tick.setP _)

end Sys2Proof.Machine
end

section
/-!
PROOFS. The read-modify-write instructions: INC and DEC (43_arithmetic.md), the shifts and rotates (45_shift_rotate.md),
and the unofficial combinations of one of them with an operation on A (49_unofficial.md R425 to R430).
-/

namespace Sys2Proof.Machine

open Sys2Proof.Claims

/-! ### Shifts and rotates in whole numbers (R310 to R313) -/

theorem rotateLeft_eq (m : Byte) (c : Bool) : rotateLeft m c = ⟨movedLeft m c, top m⟩ := by
  have joined : (m.toNat % 128) <<< 1 + c.toNat = (m.toNat % 128) <<< 1 ||| c.toNat :=
    Nat.shiftLeft_add_eq_or_of_lt (Bool.toNat_lt c) _
  have doubled : m.toNat <<< 1 % 256 = (m.toNat % 128) <<< 1 := by omega
  have entering : (if c then 0x01#8 else 0#8).toNat = c.toNat := by cases c <;> rfl
  simp only [rotateLeft, bit_seven, top, Shifted.mk.injEq, and_true]
  refine BitVec.eq_of_toNat_eq ?_
  rw [BitVec.toNat_or, BitVec.toNat_shiftLeft, entering, doubled, ← joined, movedLeft, BitVec.toNat_ofNat]
  have := Bool.toNat_lt c
  omega

theorem rotateRight_eq (m : Byte) (c : Bool) : rotateRight m c = ⟨movedRight m c, bottom m⟩ := by
  have half : m.toNat >>> 1 < 2 ^ 7 := by omega
  have joined : c.toNat <<< 7 + m.toNat >>> 1 = c.toNat <<< 7 ||| m.toNat >>> 1 := Nat.shiftLeft_add_eq_or_of_lt half _
  have entering : (if c then 0x80#8 else 0#8).toNat = c.toNat <<< 7 := by cases c <;> rfl
  simp only [rotateRight, bit_zero, Shifted.mk.injEq, and_true]
  refine BitVec.eq_of_toNat_eq ?_
  rw [BitVec.toNat_or, BitVec.toNat_ushiftRight, entering, Nat.or_comm, ← joined, movedRight, BitVec.toNat_ofNat]
  have := Bool.toNat_lt c
  omega

/-- A shift is a rotate through a clear carry. -/
theorem shiftLeft_eq (m : Byte) : shiftLeft m = ⟨movedLeft m false, top m⟩ := by
  rw [← rotateLeft_eq]
  exact congrArg (Shifted.mk · (bit m 7)) (BitVec.or_zero).symm

theorem shiftRight_eq (m : Byte) : shiftRight m = ⟨movedRight m false, bottom m⟩ := by
  rw [← rotateRight_eq]
  exact congrArg (Shifted.mk · (bit m 0)) (BitVec.or_zero).symm

/-! ### The byte each change gives, and its flags -/

section
variable {s : State} (m : Byte) (u : State) (flags : u.p = s.p)
include flags

theorem inc_change : inc m u = (BitVec.ofNat 8 (m.toNat + 1), u.setP s.p) := by
  rw [inc, add_one_eq_ofNat, ← flags]
  rfl

theorem dec_change : dec m u = (BitVec.ofNat 8 (m.toNat + 255), u.setP s.p) := by
  rw [dec, sub_one_eq_ofNat, ← flags]
  rfl

theorem asl_change : asl m u = (movedLeft m false, u.setP (carry s.p (top m))) := by
  rw [asl, shiftLeft_eq, ← flags]
  rfl

theorem lsr_change : lsr m u = (movedRight m false, u.setP (carry s.p (bottom m))) := by
  rw [lsr, shiftRight_eq, ← flags]
  rfl

theorem rol_change : rol m u = (movedLeft m s.p.c, u.setP (carry s.p (top m))) := by
  rw [rol, rotateLeft_eq, ← flags]
  rfl

theorem ror_change : ror m u = (movedRight m s.p.c, u.setP (carry s.p (bottom m))) := by
  rw [ror, rotateRight_eq, ← flags]
  rfl

end

/-! ### INC, DEC and the shifts (R263, R264, R310 to R313) -/

section
variable {i : Instr} {s : State} {f : Byte → State → Byte × State} {v : Byte → Byte} {p : Byte → Flags}

/-- A change alone leaves N and Z of the byte stored. -/
theorem modifies_of_nzOf {o : Operand} (ok : s.Ok)
    (change : ∀ m u, u.p = s.p → f m u = (v m, u.setP (p m))) (meaning : exec i s = .next (rmwOp f nzOf o s)) :
    Modifies i o s v fun m => flagsOnly s (nz (p m) (v m)) :=
  modifies_of_rmwOp ok meaning change (fun _ _ => rfl) fun m _ cpu => cpu.setNZ (v m)

/-- The accumulator form: a tick, and the change of A. -/
theorem implied_of_accOp (change : ∀ m u, u.p = s.p → f m u = (v m, u.setP (p m)))
    (meaning : exec i s = .next (accOp f s)) :
    Implied 1 i s (CpuIs · (v s.a) s.x s.y s.sp s.pc (nz (p s.a) (v s.a))) := by
  have changed : accOp f s = (((tick s).setP (p s.a)).setA (v s.a)).setNZ (v s.a) := by
    simp only [accOp, change _ (tick s) rfl]
  exact implied_of_registers (meaning.trans (congrArg _ changed)) rfl
    ((((SameCpu.refl s).tick.setP _).setA _).setNZ _)

end

/-- Settles O29: every form is the rmw class with its change. -/
theorem incAndDecModifyMemory : Obligations.IncAndDecModifyMemory := by
  intro s inv
  have ok := (State.inv_iff s).mp inv
  refine ⟨?incZp, ?incAbs, ?incZpx, ?incAbx, ?decZp, ?decAbs, ?decZpx, ?decAbx⟩
  case incZp | incAbs | incZpx | incAbx => exact fun _ => modifies_of_nzOf ok inc_change rfl
  case decZp | decAbs | decZpx | decAbx => exact fun _ => modifies_of_nzOf ok dec_change rfl

/-- Settles O31: every form is the accumulator form or the rmw class with its change. -/
theorem shiftsAndRotates : Obligations.ShiftsAndRotates := by
  intro s inv
  have ok := (State.inv_iff s).mp inv
  refine ⟨?aslAcc, ?aslZp, ?aslAbs, ?aslZpx, ?aslAbx, ?lsrAcc, ?lsrZp, ?lsrAbs, ?lsrZpx, ?lsrAbx, ?rolAcc, ?rolZp,
    ?rolAbs, ?rolZpx, ?rolAbx, ?rorAcc, ?rorZp, ?rorAbs, ?rorZpx, ?rorAbx⟩
  case aslAcc => exact implied_of_accOp asl_change rfl
  case lsrAcc => exact implied_of_accOp lsr_change rfl
  case rolAcc => exact implied_of_accOp rol_change rfl
  case rorAcc => exact implied_of_accOp ror_change rfl
  case aslZp | aslAbs | aslZpx | aslAbx => exact fun _ => modifies_of_nzOf ok asl_change rfl
  case lsrZp | lsrAbs | lsrZpx | lsrAbx => exact fun _ => modifies_of_nzOf ok lsr_change rfl
  case rolZp | rolAbs | rolZpx | rolAbx => exact fun _ => modifies_of_nzOf ok rol_change rfl
  case rorZp | rorAbs | rorZpx | rorAbx => exact fun _ => modifies_of_nzOf ok ror_change rfl

/-! ### Sums, differences and compares in whole numbers (R260, R261, R333) -/

theorem toNat_sum9 (a m : Byte) (c : Bool) : (sum9 a m c).toNat = a.toNat + m.toNat + c.toNat := by
  have := Bool.toNat_lt c
  simp only [sum9, BitVec.toNat_add, BitVec.toNat_setWidth, BitVec.toNat_ofBool]
  omega

/-- A sum overflows when its operands' signs agree and the result's does not, and then alone the signed sum is out of
range (R260). -/
theorem overflow_eq (a m r : Byte) (c : Bool) (sum : r.toNat = (a.toNat + m.toNat + c.toNat) % 256) :
    bit (~~~(a ^^^ m) &&& (a ^^^ r)) 7 =
      decide (a.toInt + m.toInt + c.toNat < -128 ∨ 127 < a.toInt + m.toInt + c.toNat) := by
  have signs : bit (~~~(a ^^^ m) &&& (a ^^^ r)) 7 = true ↔
      (128 ≤ a.toNat ↔ 128 ≤ m.toNat) ∧ ¬(128 ≤ a.toNat ↔ 128 ≤ r.toNat) := by
    have bits : bit (~~~(a ^^^ m) &&& (a ^^^ r)) 7 = (!(bit a 7 ^^ bit m 7) && (bit a 7 ^^ bit r 7)) := by
      simp only [bit, BitVec.getLsbD_and, BitVec.getLsbD_not, BitVec.getLsbD_xor, Nat.reduceLT, decide_true,
        Bool.true_and]
    simp [bits, bit_seven]
  have := Bool.toNat_lt c
  rw [Bool.eq_iff_iff, decide_eq_true_iff, signs, BitVec.toInt_eq_toNat_cond, BitVec.toInt_eq_toNat_cond]
  omega

theorem addWithCarry_eq (a m : Byte) (p : Flags) :
    ((addWithCarry a m p.c).value, p.ofSum (addWithCarry a m p.c)) = added a m p := by
  have value : (sum9 a m p.c).setWidth 8 = BitVec.ofNat 8 (a.toNat + m.toNat + p.c.toNat) := by
    rw [← toNat_sum9, BitVec.ofNat_toNat]
  have carry : (sum9 a m p.c).getLsbD 8 = decide (256 ≤ a.toNat + m.toNat + p.c.toNat) := by
    have := Bool.toNat_lt p.c
    rw [← BitVec.testBit_toNat, toNat_sum9, Nat.testBit_eq_decide_div_mod_eq, decide_eq_decide]
    omega
  have overflow := overflow_eq a m _ p.c (BitVec.toNat_ofNat (a.toNat + m.toNat + p.c.toNat) 8)
  simp only [addWithCarry, Flags.ofSum, setNZ_eq_nz, value, carry, overflow, added]

/-- A difference with borrow is the sum with the complement (R261). -/
theorem subtracted_eq (a m : Byte) (p : Flags) : subtracted a m p = added a (m ^^^ 0xFF#8) p := by
  have complement : m ^^^ 0xFF#8 = ~~~m := BitVec.xor_allOnes
  have sum : ((a.toNat + (~~~m).toNat + p.c.toNat : Nat) : Int) = a.toNat - m.toNat - (1 - p.c.toNat) + 256 := by
    rw [BitVec.toNat_not]
    omega
  have value : BitVec.ofNat 8 (a.toNat + (~~~m).toNat + p.c.toNat) =
      BitVec.ofInt 8 (a.toNat - m.toNat - (1 - p.c.toNat)) := by
    rw [← BitVec.ofInt_natCast, sum, BitVec.ofInt_add]
    exact BitVec.add_zero _
  have carry : decide (256 ≤ a.toNat + (~~~m).toNat + p.c.toNat) =
      decide ((0 : Int) ≤ a.toNat - m.toNat - (1 - p.c.toNat)) := by
    rw [decide_eq_decide]
    omega
  have opposite : (~~~m).toInt = -m.toInt - 1 := by
    simp only [BitVec.toInt_eq_toNat_cond, BitVec.toNat_not]
    split <;> split <;> omega
  have signed : a.toInt + (~~~m).toInt + p.c.toNat = a.toInt - m.toInt - (1 - p.c.toNat) := by
    rw [opposite]
    omega
  simp only [complement, subtracted, added, value, carry, signed]

theorem compare_eq_compared (p : Flags) (r m : Byte) : p.compare r m = compared r m p := by
  have sign : bit (r - m) 7 = decide (128 ≤ (r.toNat + 256 - m.toNat) % 256) := by
    rw [bit_seven, BitVec.toNat_sub, decide_eq_decide]
    omega
  simp only [Flags.compare, compared, sign, eq_iff_toNat_eq]

/-! ### The operations on A, on a state whose registers are known -/

section
variable {t : State} {a x y sp : Byte} {pc : Addr} {p : Flags}

theorem CpuIs.cmpA (h : CpuIs t a x y sp pc p) (m : Byte) : CpuIs (cmpA m t) a x y sp pc (compared a m p) := by
  rw [Machine.cmpA, h.p, h.a, compare_eq_compared]
  exact h.setP _

theorem CpuIs.adc (h : CpuIs t a x y sp pc p) (m : Byte) :
    CpuIs (adc m t) (added a m p).1 x y sp pc (added a m p).2 := by
  rw [Machine.adc, h.p, h.a, ← addWithCarry_eq]
  exact (h.setA _).setP _

theorem CpuIs.sbc (h : CpuIs t a x y sp pc p) (m : Byte) :
    CpuIs (sbc m t) (subtracted a m p).1 x y sp pc (subtracted a m p).2 := by
  rw [subtracted_eq]
  exact h.adc _

theorem CpuIs.oraA (h : CpuIs t a x y sp pc p) (m : Byte) :
    CpuIs (oraA m t) (orInto a m p).1 x y sp pc (orInto a m p).2 := by
  rw [Machine.oraA, h.a]
  exact (h.setA _).setNZ _

theorem CpuIs.andA (h : CpuIs t a x y sp pc p) (m : Byte) :
    CpuIs (andA m t) (andInto a m p).1 x y sp pc (andInto a m p).2 := by
  rw [Machine.andA, h.a]
  exact (h.setA _).setNZ _

theorem CpuIs.eorA (h : CpuIs t a x y sp pc p) (m : Byte) :
    CpuIs (eorA m t) (eorInto a m p).1 x y sp pc (eorInto a m p).2 := by
  rw [Machine.eorA, h.a]
  exact (h.setA _).setNZ _

end

/-- Settles O40: every form is the rmw class with its change, and then its operation on A with the byte stored. -/
theorem combinedReadModifyWrites : Obligations.CombinedReadModifyWrites := by
  intro s inv
  have ok := (State.inv_iff s).mp inv
  refine ⟨?dcpIzx, ?dcpZp, ?dcpAbs, ?dcpIzy, ?dcpZpx, ?dcpAby, ?dcpAbx, ?isbIzx, ?isbZp, ?isbAbs, ?isbIzy, ?isbZpx,
    ?isbAby, ?isbAbx, ?sloIzx, ?sloZp, ?sloAbs, ?sloIzy, ?sloZpx, ?sloAby, ?sloAbx, ?rlaIzx, ?rlaZp, ?rlaAbs, ?rlaIzy,
    ?rlaZpx, ?rlaAby, ?rlaAbx, ?sreIzx, ?sreZp, ?sreAbs, ?sreIzy, ?sreZpx, ?sreAby, ?sreAbx, ?rraIzx, ?rraZp, ?rraAbs,
    ?rraIzy, ?rraZpx, ?rraAby, ?rraAbx⟩
  case dcpIzx | dcpZp | dcpAbs | dcpIzy | dcpZpx | dcpAby | dcpAbx =>
    exact fun _ => modifies_of_rmwOp ok rfl dec_change (fun _ _ => rfl) fun _ _ cpu => cpu.cmpA _
  case isbIzx | isbZp | isbAbs | isbIzy | isbZpx | isbAby | isbAbx =>
    exact fun _ => modifies_of_rmwOp ok rfl inc_change (fun _ _ => rfl) fun _ _ cpu => cpu.sbc _
  case sloIzx | sloZp | sloAbs | sloIzy | sloZpx | sloAby | sloAbx =>
    exact fun _ => modifies_of_rmwOp ok rfl asl_change (fun _ _ => rfl) fun _ _ cpu => cpu.oraA _
  case rlaIzx | rlaZp | rlaAbs | rlaIzy | rlaZpx | rlaAby | rlaAbx =>
    exact fun _ => modifies_of_rmwOp ok rfl rol_change (fun _ _ => rfl) fun _ _ cpu => cpu.andA _
  case sreIzx | sreZp | sreAbs | sreIzy | sreZpx | sreAby | sreAbx =>
    exact fun _ => modifies_of_rmwOp ok rfl lsr_change (fun _ _ => rfl) fun _ _ cpu => cpu.eorA _
  case rraIzx | rraZp | rraAbs | rraIzy | rraZpx | rraAby | rraAbx =>
    exact fun _ => modifies_of_rmwOp ok rfl ror_change (fun _ _ => rfl) fun _ _ cpu => cpu.adc _

end Sys2Proof.Machine
end

section
/-!
PROOFS. The ticks of every instruction (spec/opcode_table.json, R198, R350): those of each shared operation, and with
them the balance of all 256.
-/

namespace Sys2Proof.Machine

open Sys2Proof.Claims

/-! ### The ticks of the shared operations -/

@[simp] theorem push_remainingCycles (v : Byte) (s : State) : (push v s).remainingCycles = s.remainingCycles - 1 :=
  (push_ticks v s).remainingCycles.trans (ticks_remainingCycles 1 s)

@[simp] theorem pushWord_remainingCycles (a : Addr) (s : State) :
    (pushWord a s).remainingCycles = s.remainingCycles - 2 := by
  simp only [pushWord, push_remainingCycles]
  omega

@[simp] theorem enterVector_remainingCycles (ret : Addr) (b : Bool) (vec : Addr) (s : State) :
    (enterVector ret b vec s).remainingCycles = s.remainingCycles - 5 := by
  simp only [enterVector, State.setPc_remainingCycles, read16_remainingCycles, State.setP_remainingCycles,
    push_remainingCycles, pushWord_remainingCycles]
  omega

/-- Without sprite DMA a bus write takes no tick of its own (R90, R95). -/
theorem busWrite_remainingCycles {s : State} (noDma : s.params.oamDmaEnabled = false) (a : Addr) (v : Byte) :
    (busWrite a v s).remainingCycles = s.remainingCycles := by
  cases target : targetOf a with
  | dma => simp [busWrite, target, noDma]
  | controller port =>
    simp only [busWrite, target]
    split <;> rfl
  | ram | ppu | apu | undriven | prgRam | prgRom => simp [busWrite, target]

theorem memWrite_remainingCycles {s : State} (noDma : s.params.oamDmaEnabled = false) (a : Addr) (v : Byte) :
    (memWrite a v s).remainingCycles = s.remainingCycles - 1 :=
  busWrite_remainingCycles (s := tick s) noDma a v

theorem OnlyRegisters.remainingCycles {s t : State} (h : OnlyRegisters s t) : t.remainingCycles = s.remainingCycles :=
  h.devicesAs.remainingCycles

/-! ### Branches (R350) -/

theorem hi8_eq_iff (a b : Addr) : hi8 a = hi8 b ↔ a.toNat / 256 = b.toNat / 256 := by
  have page (a : Addr) : (hi8 a).toNat = a.toNat / 256 := by
    rw [hi8, BitVec.toNat_setWidth, BitVec.toNat_ushiftRight, Nat.shiftRight_eq_div_pow]
    omega
  rw [eq_iff_toNat_eq, page, page]

theorem add_sext16 (a : Addr) (d : Byte) : a + sext16 d = BitVec.ofInt 16 (a.toNat + d.toInt) := by
  rw [BitVec.ofInt_add, BitVec.ofInt_natCast, BitVec.ofNat_toNat, BitVec.setWidth_eq]
  rfl

/-- A branch is ticks and a write of the pc (R350). -/
theorem branch_eq (taken : Bool) (d : Byte) (s : State) :
    branch taken d s =
      (ticks (branchTicks taken d s) s).setPc (if taken then BitVec.ofInt 16 (s.pc.toNat + d.toInt) else s.pc) := by
  cases taken
  · rfl
  · simp only [branch, branchTicks, if_true, add_sext16, hi8_eq_iff]
    split <;> rfl

/-! ### The ticks an instruction spends after its fetch -/

/-- The instruction answers a next state, `n` ticks on. -/
def Spends (n : Nat) (i : Instr) (s : State) : Prop :=
  ∃ t, exec i s = .next t ∧ t.remainingCycles = s.remainingCycles - n

section
variable {i : Instr} {s : State} {o : Operand}

theorem spends_of_registers {t : State} (n : Nat) (meaning : exec i s = .next t)
    (registers : OnlyRegisters (ticks n s) t) : Spends n i s :=
  ⟨t, meaning, registers.remainingCycles.trans (ticks_remainingCycles n s)⟩

theorem spends_of_readOp {f : Byte → State → State} (meaning : exec i s = .next (readOp f o s))
    (registers : ∀ m u, OnlyRegisters u (f m u)) : Spends (operandTicks .read o s + 1) i s := by
  refine ⟨_, meaning, ?_⟩
  simp only [readOp, (registers _ _).remainingCycles, memRead_remainingCycles, effectiveAddress_eq,
    ticks_remainingCycles]
  omega

theorem spends_of_writeOp {f : State → Byte} (noDma : s.params.oamDmaEnabled = false)
    (meaning : exec i s = .next (writeOp f o s)) : Spends (operandTicks .write o s + 1) i s := by
  refine ⟨_, meaning, ?_⟩
  simp only [writeOp, effectiveAddress_eq]
  rw [memWrite_remainingCycles (by simpa using noDma), ticks_remainingCycles]
  omega

theorem spends_of_rmwOp {f : Byte → State → Byte × State} {g : Byte → State → State}
    (noDma : s.params.oamDmaEnabled = false) (meaning : exec i s = .next (rmwOp f g o s))
    (changes : ∀ m u, OnlyRegisters u (f m u).2) (registers : ∀ m u, OnlyRegisters u (g m u)) :
    Spends (operandTicks .rmw o s + 3) i s := by
  refine ⟨_, meaning, ?_⟩
  simp only [rmwOp, (registers _ _).remainingCycles, effectiveAddress_eq]
  rw [memWrite_remainingCycles, (changes _ _).remainingCycles, tick_remainingCycles, memRead_remainingCycles,
    ticks_remainingCycles]
  · omega
  · rw [(changes _ _).sameDevices.params]
    simpa using noDma

theorem spends_of_branch {taken : Bool} {d : Byte} (meaning : exec i s = .next (branch taken d s)) :
    Spends (branchTicks taken d s) i s := by
  refine ⟨_, meaning, ?_⟩
  rw [branch_eq]
  exact ticks_remainingCycles _ s

theorem spends_of_push {v : Byte} (meaning : exec i s = .next (push v (tick s))) : Spends 2 i s := by
  refine ⟨_, meaning, ?_⟩
  rw [push_remainingCycles, tick_remainingCycles]
  omega

theorem spends_of_pull {t : State} (meaning : exec i s = .next t)
    (registers : OnlyRegisters (pull (tick (tick s))).2 t) : Spends 3 i s := by
  refine ⟨_, meaning, ?_⟩
  rw [registers.remainingCycles, pull_remainingCycles, tick_remainingCycles, tick_remainingCycles]
  omega

theorem spends_of_undefinedOpcode {op : Byte} (policy : s.params.undefinedPolicy = .nop)
    (meaning : exec i s = undefinedOpcode op s) : Spends 1 i s :=
  ⟨_, meaning.trans (undefinedOpcode_of_nop policy op), rfl⟩

end

theorem spends_jmpInd (a : Addr) (s : State) : Spends 2 (.jmpInd a) s :=
  ⟨_, rfl, read16_remainingCycles ..⟩

theorem spends_jsr (lo : Byte) (s : State) : Spends 4 (.jsr lo) s := by
  refine ⟨jsr lo s, rfl, ?_⟩
  simp only [jsr, State.setPc_remainingCycles, memRead_remainingCycles, pushWord_remainingCycles, tick_remainingCycles]
  omega

theorem spends_rts (s : State) : Spends 5 .rts s := by
  refine ⟨rts s, rfl, ?_⟩
  simp only [rts, State.setPc_remainingCycles, pullWord_remainingCycles, tick_remainingCycles]
  omega

theorem spends_brk (s : State) : Spends 6 .brk s := by
  refine ⟨brk s, rfl, ?_⟩
  simp only [brk, enterVector_remainingCycles, State.setPc_remainingCycles, memRead_remainingCycles]
  omega

theorem spends_rti (s : State) : Spends 5 .rti s := by
  refine ⟨returnFromInterrupt s, rfl, ?_⟩
  rw [returnFromInterrupt_eq]
  exact ticks_remainingCycles 5 s

/-! ### The opcode table -/

/-- What an instruction spends and its fetches are the ticks of its opcode and its extras. -/
theorem takesItsTicks_of_spends {i : Instr} {s : State} {n : Nat} {op : Byte} {rest : List Byte} (h : Spends n i s)
    (bytes : encode i = op :: rest) (balance : extraTicks i s + ticksOf op = n + (encode i).length) :
    ∃ op rest t, encode i = op :: rest ∧ exec i s = .next t ∧
      t.remainingCycles = s.remainingCycles - ((ticksOf op : Int) - (encode i).length + extraTicks i s) := by
  obtain ⟨t, meaning, spent⟩ := h
  refine ⟨op, rest, t, bytes, meaning, ?_⟩
  rw [spent]
  omega

/-- Settles O23: each instruction by its shape, its ticks balanced against the opcode table. -/
theorem everyInstructionTakesItsTicks : Obligations.EveryInstructionTakesItsTicks := by
  intro i s noDma policy
  cases i with
  | oraImm | andImm | eorImm | adcImm | nop80 | nop82 | nop89 | ldyImm | ldxImm | ldaImm | cpyImm | nopC2
  | cmpImm | cpxImm | nopE2 | sbcImm | sbcImmEB | jmpAbs =>
    exact takesItsTicks_of_spends (spends_of_registers 0 rfl rfl) rfl rfl
  | clc | nop1A | sec | nop3A | cli | nop5A | sei | nop7A | dey | txa | tya | txs | tay | tax | clv | tsx | iny
  | dex | cld | nopDA | inx | nop | sed | nopFA | aslAcc | rolAcc | lsrAcc | rorAcc =>
    exact takesItsTicks_of_spends (spends_of_registers 1 rfl rfl) rfl rfl
  | bpl | bmi | bvc | bvs | bcc | bcs | bne | beq =>
    exact takesItsTicks_of_spends (spends_of_branch rfl) rfl rfl
  | oraIzx | nop04 | oraZp | nop0C | oraAbs | oraIzy | nop14 | oraZpx | oraAby | nop1C | oraAbx | andIzx
  | bitZp | andZp | bitAbs | andAbs | andIzy | nop34 | andZpx | andAby | nop3C | andAbx | eorIzx | nop44
  | eorZp | eorAbs | eorIzy | nop54 | eorZpx | eorAby | nop5C | eorAbx | adcIzx | nop64 | adcZp | adcAbs
  | adcIzy | nop74 | adcZpx | adcAby | nop7C | adcAbx | ldaIzx | laxIzx | ldyZp | ldaZp | ldxZp | laxZp
  | ldyAbs | ldaAbs | ldxAbs | laxAbs | ldaIzy | laxIzy | ldyZpx | ldaZpx | ldxZpy | laxZpy | ldaAby | ldyAbx
  | ldaAbx | ldxAby | laxAby | cmpIzx | cpyZp | cmpZp | cpyAbs | cmpAbs | cmpIzy | nopD4 | cmpZpx | cmpAby
  | nopDC | cmpAbx | sbcIzx | cpxZp | sbcZp | cpxAbs | sbcAbs | sbcIzy | nopF4 | sbcZpx | sbcAby | nopFC
  | sbcAbx =>
    exact takesItsTicks_of_spends (spends_of_readOp rfl fun _ _ => rfl) rfl rfl
  | staIzx | saxIzx | styZp | staZp | stxZp | saxZp | styAbs | staAbs | stxAbs | saxAbs | staIzy | styZpx
  | staZpx | stxZpy | saxZpy | staAby | staAbx =>
    exact takesItsTicks_of_spends (spends_of_writeOp noDma rfl) rfl rfl
  | sloIzx | aslZp | sloZp | aslAbs | sloAbs | sloIzy | aslZpx | sloZpx | sloAby | aslAbx | sloAbx | rlaIzx
  | rolZp | rlaZp | rolAbs | rlaAbs | rlaIzy | rolZpx | rlaZpx | rlaAby | rolAbx | rlaAbx | sreIzx | lsrZp
  | sreZp | lsrAbs | sreAbs | sreIzy | lsrZpx | sreZpx | sreAby | lsrAbx | sreAbx | rraIzx | rorZp | rraZp
  | rorAbs | rraAbs | rraIzy | rorZpx | rraZpx | rraAby | rorAbx | rraAbx | dcpIzx | decZp | dcpZp | decAbs
  | dcpAbs | dcpIzy | decZpx | dcpZpx | dcpAby | decAbx | dcpAbx | isbIzx | incZp | isbZp | incAbs | isbAbs
  | isbIzy | incZpx | isbZpx | isbAby | incAbx | isbAbx =>
    exact takesItsTicks_of_spends (spends_of_rmwOp noDma rfl (fun _ _ => rfl) fun _ _ => rfl) rfl rfl
  | pha | php => exact takesItsTicks_of_spends (spends_of_push rfl) rfl rfl
  | pla | plp => exact takesItsTicks_of_spends (spends_of_pull rfl rfl) rfl rfl
  | jmpInd a => exact takesItsTicks_of_spends (spends_jmpInd a s) rfl rfl
  | jsr lo => exact takesItsTicks_of_spends (spends_jsr lo s) rfl rfl
  | rts => exact takesItsTicks_of_spends (spends_rts s) rfl rfl
  | brk => exact takesItsTicks_of_spends (spends_brk s) rfl rfl
  | rti => exact takesItsTicks_of_spends (spends_rti s) rfl rfl
  | undef02 | undef0B | undef12 | undef22 | undef2B | undef32 | undef42 | undef4B | undef52 | undef62 | undef6B
  | undef72 | undef8B | undef92 | undef93 | undef9B | undef9C | undef9E | undef9F | undefAB | undefB2 | undefBB
  | undefCB | undefD2 | undefF2 =>
    exact takesItsTicks_of_spends (spends_of_undefinedOpcode policy rfl) rfl rfl

end Sys2Proof.Machine
end

section
/-!
PROOFS. ADC and SBC in every form, and the law that binds them (43_arithmetic.md R260 to R262, R269, R424).
-/

namespace Sys2Proof.Machine

open Sys2Proof.Claims

section
variable {i : Instr} {o : Operand} {s : State}

theorem reads_of_adc (meaning : exec i s = .next (readOp adc o s)) : Reads i o s fun m => inAWith s (added s.a m s.p) :=
  reads_of_readOp meaning (fun _ _ => rfl) fun m _ cpu => cpu.adc m

theorem reads_of_sbc (meaning : exec i s = .next (readOp sbc o s)) :
    Reads i o s fun m => inAWith s (subtracted s.a m s.p) :=
  reads_of_readOp meaning (fun _ _ => rfl) fun m _ cpu => cpu.sbc m

end

/-- Settles O27: every form is the read class with its sum or difference, or that on the operand byte. -/
theorem adcAndSbcInEveryForm : Obligations.AdcAndSbcInEveryForm := by
  intro s
  have same := SameCpu.refl s
  refine ⟨?adcIzx, ?adcZp, ?adcImm, ?adcAbs, ?adcIzy, ?adcZpx, ?adcAby, ?adcAbx, ?sbcIzx, ?sbcZp, ?sbcImm, ?sbcImmEB,
    ?sbcAbs, ?sbcIzy, ?sbcZpx, ?sbcAby, ?sbcAbx⟩
  case adcImm => exact fun v => implied_of_registers rfl rfl (same.adc v)
  case sbcImm | sbcImmEB => exact fun v => implied_of_registers rfl rfl (same.sbc v)
  case adcIzx | adcZp | adcAbs | adcIzy | adcZpx | adcAby | adcAbx => exact fun _ => reads_of_adc rfl
  case sbcIzx | sbcZp | sbcAbs | sbcIzy | sbcZpx | sbcAby | sbcAbx => exact fun _ => reads_of_sbc rfl

/-- A sum with carry-in `p.c`, less the same operand with carry-in `q.c`, is off by both carries less one: the borrow
`1 - q.c` takes back `p.c` only when the carries are opposite (R262). -/
theorem subtracted_added (a m : Byte) (p q : Flags) :
    (subtracted (added a m p).1 m q).1 = BitVec.ofInt 8 (a.toNat + p.c.toNat + q.c.toNat - 1) := by
  apply BitVec.eq_of_toNat_eq
  simp only [subtracted, added, BitVec.toNat_ofInt, BitVec.toNat_ofNat]
  omega

theorem subtracted_added_of_opposite (a m : Byte) {p q : Flags} (opposite : q.c = !p.c) :
    (subtracted (added a m p).1 m q).1 = a := by
  have carries : ((a.toNat : Int) + p.c.toNat + q.c.toNat - 1) = a.toNat := by
    cases carryIn : p.c <;> simp [opposite, carryIn]
  rw [subtracted_added, carries, BitVec.ofInt_natCast, BitVec.ofNat_toNat, BitVec.setWidth_eq]

/-- Settles O28: the difference is taken from the sum with the opposite carry, so the law of R262 gives A back. -/
theorem sbcUndoesAdc : Obligations.SbcUndoesAdc := by
  intro s m
  have afterAdc := (SameCpu.refl s).adc m
  have afterSbc := (afterAdc.setP { (adc m s).p with c := !s.p.c }).sbc m
  exact ⟨_, _, rfl, rfl, afterSbc.a.trans (subtracted_added_of_opposite s.a m rfl)⟩

end Sys2Proof.Machine
end

section
/-!
PROOFS. The logical instructions (44_logical.md R290 to R293).
-/

namespace Sys2Proof.Machine

open Sys2Proof.Claims

/-! ### BIT's flags in whole numbers (R293) -/

theorem bitTest_eq_bitFlags (p : Flags) (a m : Byte) : p.bitTest a m = bitFlags a m p := by
  have bitSix : bit m 6 = decide (m.toNat / 64 % 2 = 1) := bit_eq_decide m 6
  rw [Flags.bitTest, bitFlags, bit_seven, bitSix]

theorem CpuIs.bitA {t : State} {a x y sp : Byte} {pc : Addr} {p : Flags} (h : CpuIs t a x y sp pc p) (m : Byte) :
    CpuIs (bitA m t) a x y sp pc (bitFlags a m p) := by
  rw [Machine.bitA, h.p, h.a, bitTest_eq_bitFlags]
  exact h.setP _

/-! ### The forms that read memory -/

section
variable {i : Instr} {o : Operand} {s : State}

theorem reads_of_and (meaning : exec i s = .next (readOp andA o s)) : Reads i o s fun m => inA s (s.a &&& m) :=
  reads_of_readOp meaning (fun _ _ => rfl) fun m _ cpu => cpu.andA m

theorem reads_of_ora (meaning : exec i s = .next (readOp oraA o s)) : Reads i o s fun m => inA s (s.a ||| m) :=
  reads_of_readOp meaning (fun _ _ => rfl) fun m _ cpu => cpu.oraA m

theorem reads_of_eor (meaning : exec i s = .next (readOp eorA o s)) : Reads i o s fun m => inA s (s.a ^^^ m) :=
  reads_of_readOp meaning (fun _ _ => rfl) fun m _ cpu => cpu.eorA m

theorem reads_of_bit (meaning : exec i s = .next (readOp bitA o s)) :
    Reads i o s fun m => flagsOnly s (bitFlags s.a m s.p) :=
  reads_of_readOp meaning (fun _ _ => rfl) fun m _ cpu => cpu.bitA m

end

/-- Settles O30: every form is the read class with its operation, or that operation on the operand byte. -/
theorem logicalInstructions : Obligations.LogicalInstructions := by
  intro s
  have same := SameCpu.refl s
  refine ⟨?andIzx, ?andZp, ?andImm, ?andAbs, ?andIzy, ?andZpx, ?andAby, ?andAbx, ?oraIzx, ?oraZp, ?oraImm, ?oraAbs,
    ?oraIzy, ?oraZpx, ?oraAby, ?oraAbx, ?eorIzx, ?eorZp, ?eorImm, ?eorAbs, ?eorIzy, ?eorZpx, ?eorAby, ?eorAbx, ?bitZp,
    ?bitAbs⟩
  case andImm => exact fun v => implied_of_registers rfl rfl (same.andA v)
  case oraImm => exact fun v => implied_of_registers rfl rfl (same.oraA v)
  case eorImm => exact fun v => implied_of_registers rfl rfl (same.eorA v)
  case andIzx | andZp | andAbs | andIzy | andZpx | andAby | andAbx => exact fun _ => reads_of_and rfl
  case oraIzx | oraZp | oraAbs | oraIzy | oraZpx | oraAby | oraAbx => exact fun _ => reads_of_ora rfl
  case eorIzx | eorZp | eorAbs | eorIzy | eorZpx | eorAby | eorAbx => exact fun _ => reads_of_eor rfl
  case bitZp | bitAbs => exact fun _ => reads_of_bit rfl

end Sys2Proof.Machine
end

section
/-!
PROOFS. The compares (46_compare.md R330 to R333).
-/

namespace Sys2Proof.Machine

open Sys2Proof.Claims

/-! ### The compares of X and Y, on a state whose registers are known -/

section
variable {t : State} {a x y sp : Byte} {pc : Addr} {p : Flags}

theorem CpuIs.cmpX (h : CpuIs t a x y sp pc p) (m : Byte) : CpuIs (cmpX m t) a x y sp pc (compared x m p) := by
  rw [Machine.cmpX, h.p, h.x, compare_eq_compared]
  exact h.setP _

theorem CpuIs.cmpY (h : CpuIs t a x y sp pc p) (m : Byte) : CpuIs (cmpY m t) a x y sp pc (compared y m p) := by
  rw [Machine.cmpY, h.p, h.y, compare_eq_compared]
  exact h.setP _

end

/-! ### The forms that read memory -/

section
variable {i : Instr} {o : Operand} {s : State}

theorem reads_of_cmp (meaning : exec i s = .next (readOp cmpA o s)) :
    Reads i o s fun m => flagsOnly s (compared s.a m s.p) :=
  reads_of_readOp meaning (fun _ _ => rfl) fun m _ cpu => cpu.cmpA m

theorem reads_of_cpx (meaning : exec i s = .next (readOp cmpX o s)) :
    Reads i o s fun m => flagsOnly s (compared s.x m s.p) :=
  reads_of_readOp meaning (fun _ _ => rfl) fun m _ cpu => cpu.cmpX m

theorem reads_of_cpy (meaning : exec i s = .next (readOp cmpY o s)) :
    Reads i o s fun m => flagsOnly s (compared s.y m s.p) :=
  reads_of_readOp meaning (fun _ _ => rfl) fun m _ cpu => cpu.cmpY m

end

/-- Settles O32: every form is the read class with the compare of its register, or that compare with the operand
byte; the compare's subtraction gives the three flags in whole numbers (`compare_eq_compared`). -/
theorem compareInstructions : Obligations.CompareInstructions := by
  intro s
  have same := SameCpu.refl s
  refine ⟨?cmpIzx, ?cmpZp, ?cmpImm, ?cmpAbs, ?cmpIzy, ?cmpZpx, ?cmpAby, ?cmpAbx, ?cpxImm, ?cpxZp, ?cpxAbs, ?cpyImm,
    ?cpyZp, ?cpyAbs⟩
  case cmpImm => exact fun v => implied_of_registers rfl rfl (same.cmpA v)
  case cpxImm => exact fun v => implied_of_registers rfl rfl (same.cmpX v)
  case cpyImm => exact fun v => implied_of_registers rfl rfl (same.cmpY v)
  case cmpIzx | cmpZp | cmpAbs | cmpIzy | cmpZpx | cmpAby | cmpAbx => exact fun _ => reads_of_cmp rfl
  case cpxZp | cpxAbs => exact fun _ => reads_of_cpx rfl
  case cpyZp | cpyAbs => exact fun _ => reads_of_cpy rfl

end Sys2Proof.Machine
end

section
/-!
PROOFS. The branches, the jumps, and the call and return of a subroutine (47_control_flow.md R350 to R363).
-/

namespace Sys2Proof.Machine

open Sys2Proof.Claims

theorem CpuIs.setPc {t : State} {a x y sp : Byte} {pc : Addr} {p : Flags} (h : CpuIs t a x y sp pc p) (target : Addr) :
    CpuIs (t.setPc target) a x y sp target p :=
  ⟨h.a, h.x, h.y, h.sp, rfl, h.p⟩

/-! ### Branches (R350 to R358) -/

/-- `branch` with an instruction's condition is that instruction's branch, its ticks and target as in `branch_eq`. -/
theorem branches_of_branch {i : Instr} {taken : Bool} {d : Byte} {s : State}
    (meaning : exec i s = .next (branch taken d s)) : Branches i taken d s := by
  rw [branch_eq] at meaning
  cases taken with
  | false => exact implied_of_registers meaning rfl ((SameCpu.ticks 0 s).setPc s.pc)
  | true => exact implied_of_registers meaning rfl ((SameCpu.ticks _ s).setPc _)

/-- Settles O33: each branch is `branch` on its flag. -/
theorem branchesTakeOrSkip : Obligations.BranchesTakeOrSkip := fun _ _ =>
  ⟨branches_of_branch rfl, branches_of_branch rfl, branches_of_branch rfl, branches_of_branch rfl,
    branches_of_branch rfl, branches_of_branch rfl, branches_of_branch rfl, branches_of_branch rfl⟩

/-! ### Jumps (R360, R361) -/

theorem toNat_hi8 (a : Addr) : (hi8 a).toNat = a.toNat / 256 := by
  rw [hi8, BitVec.toNat_setWidth, BitVec.toNat_ushiftRight, Nat.shiftRight_eq_div_pow]
  omega

theorem toNat_lo8 (a : Addr) : (lo8 a).toNat = a.toNat % 256 := BitVec.toNat_setWidth 8 a

/-- The pointer's second byte is the next one within its page (R361). -/
theorem indirectHigh_eq (a : Addr) :
    indirectHigh a = BitVec.ofNat 16 (a.toNat / 256 * 256 + (a.toNat + 1) % 256) := by
  refine BitVec.eq_of_toNat_eq ?_
  rw [indirectHigh, toNat_word, toNat_hi8, toNat_lo8, BitVec.toNat_add, BitVec.toNat_ofNat, BitVec.toNat_ofNat]
  omega

/-- Settles O34: JMP absolute only writes the pc; JMP indirect writes it after the two reads of its pointer. -/
theorem jumpsLoadThePc : Obligations.JumpsLoadThePc := by
  intro s a
  refine ⟨implied_of_registers (t := s.setPc a) rfl rfl ((SameCpu.refl s).setPc a), ?_⟩
  rw [← indirectHigh_eq]
  exact ⟨_, rfl, (((SameCpu.refl s).memRead a).memRead _).setPc _, ⟨rfl, rfl, rfl, rfl, rfl⟩,
    (read16_onlyRead a (indirectHigh a) s).trans (OnlyRegisters.onlyRead rfl)⟩

/-! ### Two bytes pushed (R35, R82) -/

theorem CpuIs.pushWord {t : State} {a x y sp : Byte} {pc : Addr} {p : Flags} (h : CpuIs t a x y sp pc p) (w : Addr) :
    CpuIs (pushWord w t) a x y (sp - 2#8) pc p := by
  constructor <;> simp [h.a, h.x, h.y, h.sp, h.pc, h.p]

theorem pushWord_bytes {s : State} (ok : s.Ok) (w : Addr) :
    BytesAfter [(stackAddr (s.sp - 1#8), lo8 w), (stackAddr s.sp, hi8 w)] s (pushWord w s) := by
  have low := push_bytes (ok.push (hi8 w)) (lo8 w)
  rw [push_sp] at low
  exact (push_bytes ok (hi8 w)).trans low

theorem pushWord_waited (w : Addr) (s : State) : Waited 2 s (pushWord w s) := by
  rw [pushWord_eq]
  exact (((Waited.ticks 2 s).ramWrite _ _).ramWrite _ _).registers rfl

/-- The pushed word reads back from its two slots, which differ. -/
theorem pushWord_ramAt {s : State} (ok : s.Ok) (w : Addr) :
    (pushWord w s).ramAt (stackIndex s.sp 0) = hi8 w ∧ (pushWord w s).ramAt (stackIndex s.sp 1) = lo8 w := by
  obtain ⟨distinct, -, -⟩ := stackIndex_frame s.sp
  have ok0 := ok.ticks 2
  have ok1 := ok0.ramWrite (stackIndex_lt s.sp 0) (hi8 w)
  rw [pushWord_eq]
  simp only [setSp_ramAt, ramAt_ramWrite ok1, ramAt_ramWrite ok0, if_true, if_neg distinct, and_self]

theorem SamePpuMemories.trans {s t u : State} (h : SamePpuMemories s t) (h' : SamePpuMemories t u) :
    SamePpuMemories s u :=
  ⟨h'.oam.trans h.oam, h'.ciram.trans h.ciram, h'.palette.trans h.palette⟩

/-- Ticks change no memory of the PPU. -/
theorem Waited.memories {n : Nat} {s t : State} (h : Waited n s t) : SamePpuMemories s t := by
  obtain ⟨oam, ciram, palette⟩ := (OnlyRead.ticks n s).memories
  have ppu := h.devices.ppu
  exact ⟨by rw [ppu, oam], by rw [ppu, ciram], by rw [ppu, palette]⟩

/-! ### JSR and RTS (R362, R363) -/

theorem exec_jsr (lo : Byte) (s : State) : exec (.jsr lo) s = .next (jsr lo s) := rfl

theorem exec_rts (s : State) : exec .rts s = .next (rts s) := rfl

/-- JSR reads its last byte where the pc stands, after the pushes, which leave the pc. -/
theorem jsr_eq (lo : Byte) (s : State) :
    jsr lo s =
      let hi := memRead s.pc (pushWord s.pc (tick s))
      hi.2.setPc (word hi.1 lo) := by
  simp only [jsr, pushWord_pc, tick_pc]

/-- After the pushes JSR reads one byte and writes the pc. -/
theorem jsr_after_pushes (lo : Byte) (s : State) :
    let pushed := pushWord s.pc (tick s)
    let hi := memRead s.pc pushed
    CpuIs (jsr lo s) s.a s.x s.y (s.sp - 2#8) (word hi.1 lo) s.p ∧ DevicesAs hi.2 (jsr lo s) ∧
      OnlyRead pushed (jsr lo s) := by
  rw [jsr_eq]
  exact ⟨(((SameCpu.refl s).tick.pushWord s.pc).memRead s.pc).setPc _, OnlyRegisters.devicesAs rfl,
    (memRead_onlyRead s.pc _).trans (OnlyRegisters.onlyRead rfl)⟩

/-- RTS (R363): two bytes pulled, and the pc one past their word, in five ticks. -/
theorem rts_eq (s : State) :
    rts s =
      ((ticks 5 s).setSp (s.sp + 2#8)).setPc
        (word (s.ramAt (0x100 + (s.sp + 2#8).toNat)) (s.ramAt (0x100 + (s.sp + 1#8).toNat)) + 1#16) := by
  simp only [rts, pullWord_eq, ← ticks_one, ticks_setSp, ticks_sp, ticks_ramAt, ← ticks_add]

@[simp] theorem memRead_ramAt (a : Addr) (s : State) (k : Nat) : (memRead a s).2.ramAt k = s.ramAt k := by
  simp only [State.ramAt, memRead_ram, memRead_params]

/-- JSR leaves the address of its last byte in the two slots from the caller's S down. -/
theorem jsr_leaves_return {s : State} (ok : s.Ok) (lo : Byte) :
    (jsr lo s).sp = s.sp - 2#8 ∧ (jsr lo s).ramAt (stackIndex s.sp 0) = hi8 s.pc ∧
      (jsr lo s).ramAt (stackIndex s.sp 1) = lo8 s.pc := by
  rw [jsr_eq]
  refine ⟨by simp, ?_⟩
  simp only [setPc_ramAt, memRead_ramAt]
  exact pushWord_ramAt ok.tick s.pc

/-- The slots that two pulls after two pushes read are those of the pushes, the last one first. -/
theorem stackIndex_of_pullWord (sp : Byte) :
    0x100 + (sp - 2#8 + 1#8).toNat = stackIndex sp 1 ∧ 0x100 + (sp - 2#8 + 2#8).toNat = stackIndex sp 0 := by
  simp only [stackIndex]
  constructor <;> bv_omega

/-- RTS right after a JSR goes on one past the JSR's last byte, with the caller's S. -/
theorem rts_jsr {s : State} (ok : s.Ok) (lo : Byte) :
    rts (jsr lo s) = ((ticks 5 (jsr lo s)).setSp s.sp).setPc (s.pc + 1#16) := by
  obtain ⟨sp, hi, low⟩ := jsr_leaves_return ok lo
  obtain ⟨slot1, slot0⟩ := stackIndex_of_pullWord s.sp
  rw [rts_eq, sp, slot1, slot0, hi, low, word_hi8_lo8, BitVec.sub_add_cancel]

/-- Writes of S and the pc are a register effect, whatever state they are made in. -/
theorem onlyRegisters_sp_pc (s : State) (sp : Byte) (pc : Addr) : OnlyRegisters s ((s.setSp sp).setPc pc) := rfl

/-- Settles O35: JSR is two pushes, a read and a write of the pc; RTS pulls the two slots JSR pushed. -/
theorem jsrPushesAndRtsReturns : Obligations.JsrPushesAndRtsReturns := by
  intro s lo inv
  have ok := (State.inv_iff s).mp inv
  refine ⟨⟨jsr lo s, exec_jsr lo s, ?call⟩, ?pull, ?roundTrip⟩
  case call =>
    obtain ⟨cpu, devices, read⟩ := jsr_after_pushes lo s
    have pushes := pushWord_waited s.pc (tick s)
    have waited : Waited 3 s (pushWord s.pc (tick s)) := (Waited.ticks 1 s).trans pushes pushes.fixed
    have stored := BytesAfter.trans (l := []) (OnlyRead.tick s).bytes (pushWord_bytes ok.tick s.pc)
    exact ⟨cpu, stored.of_same read.bytes, devices, waited.fixed.trans read.fixed, read.mapper.trans waited.mapper,
      waited.memories.trans read.memories⟩
  case pull =>
    exact implied_of_registers ((exec_rts s).trans (congrArg _ (rts_eq s))) (onlyRegisters_sp_pc ..)
      (((SameCpu.ticks 5 s).setSp _).setPc _)
  case roundTrip =>
    exact ⟨_, _, exec_jsr lo s, (exec_rts _).trans (congrArg _ (rts_jsr ok lo)), State.setPc_pc .., State.setPc_sp ..⟩

end Sys2Proof.Machine
end

section
/-!
PROOFS. The stack instructions, BRK, RTI and the no-operations (48_stack_flags_system.md R380 to R383 and R400 to R402;
49_unofficial.md R421).
-/

namespace Sys2Proof.Machine

open Sys2Proof.Claims

/-! ### Pushes (R380, R381) -/

theorem CpuIs.push {t : State} {a x y sp : Byte} {pc : Addr} {p : Flags} (h : CpuIs t a x y sp pc p) (v : Byte) :
    CpuIs (push v t) a x y (sp - 1#8) pc p := by
  constructor <;> simp [h.a, h.x, h.y, h.sp, h.pc, h.p]

theorem push_waited (v : Byte) (s : State) : Waited 1 s (push v s) := by
  rw [push_eq]
  exact ((Waited.ticks 1 s).ramWrite _ _).registers rfl

/-- A tick and a push of `v`: one store in the stack page, S one less, no other register or flag. -/
theorem pushes_of_push {i : Instr} {s : State} {v : Byte} (ok : s.Ok) (meaning : exec i s = .next (push v (tick s))) :
    ∃ t, exec i s = .next t ∧ CpuIs t s.a s.x s.y (s.sp - 1#8) s.pc s.p ∧ BytesAfter [(stackAddr s.sp, v)] s t ∧
      Waited 2 s t := by
  have pushed := push_waited v (tick s)
  exact ⟨_, meaning, (SameCpu.refl s).tick.push v,
    BytesAfter.trans (l := []) (OnlyRead.tick s).bytes (push_bytes ok.tick v),
    (Waited.ticks 1 s).trans pushed pushed.fixed⟩

/-! ### Pulls (R382, R383) -/

/-- Two ticks and a pull: the byte one above S, and S there, in three ticks. -/
theorem pull_after_ticks (s : State) :
    pull (tick (tick s)) = (s.ramAt (0x100 + (s.sp + 1#8).toNat), (ticks 3 s).setSp (s.sp + 1#8)) := by
  simp only [pull_eq, ← ticks_one, ticks_setSp, ticks_sp, ticks_ramAt, ← ticks_add]

theorem pla_eq (s : State) :
    pla s =
      let m := s.ramAt (0x100 + (s.sp + 1#8).toNat)
      (((ticks 3 s).setSp (s.sp + 1#8)).setA m).setNZ m := by
  simp only [pla, pull_after_ticks]

theorem plp_eq (s : State) :
    plp s =
      ((ticks 3 s).setSp (s.sp + 1#8)).setP (unpack (s.ramAt (0x100 + (s.sp + 1#8).toNat))) := by
  simp only [plp, pull_after_ticks]

theorem exec_pla (s : State) : exec .pla s = .next (pla s) := rfl

theorem exec_plp (s : State) : exec .plp s = .next (plp s) := rfl

/-- Writes of S, of A and of N and Z are a register effect, whatever state they are made in. -/
theorem onlyRegisters_sp_a_nz (s : State) (sp m : Byte) : OnlyRegisters s (((s.setSp sp).setA m).setNZ m) := rfl

/-- Writes of S and the flags are a register effect, whatever state they are made in. -/
theorem onlyRegisters_sp_p (s : State) (sp : Byte) (p : Flags) : OnlyRegisters s ((s.setSp sp).setP p) := rfl

/-- Settles O36: PHA and PHP are a tick and a push; PLA and PLP write what two ticks and a pull give. -/
theorem stackInstructions : Obligations.StackInstructions := by
  intro s inv
  have ok := (State.inv_iff s).mp inv
  have pulled := (SameCpu.ticks 3 s).setSp (s.sp + 1#8)
  refine ⟨?pha, ?php, ?pla, ?plp⟩
  case pha => exact pushes_of_push ok rfl
  case php => exact pushes_of_push ok rfl
  case pla =>
    exact implied_of_registers ((exec_pla s).trans (congrArg _ (pla_eq s))) (onlyRegisters_sp_a_nz ..)
      ((pulled.setA _).setNZ _)
  case plp =>
    exact implied_of_registers ((exec_plp s).trans (congrArg _ (plp_eq s))) (onlyRegisters_sp_p ..)
      (pulled.setP _)

/-! ### BRK (R400) -/

theorem onlyRegisters_p (s : State) (p : Flags) : OnlyRegisters s (s.setP p) := rfl

theorem onlyRegisters_pc (s : State) (pc : Addr) : OnlyRegisters s (s.setPc pc) := rfl

/-- Entering a vector stores the frame and nothing else (R400, R469). -/
theorem enterVector_bytes {s : State} (ok : s.Ok) (ret : Addr) (b : Bool) (vec : Addr) :
    BytesAfter
      [(stackAddr (s.sp - 2#8), s.p.pack b), (stackAddr (s.sp - 1#8), lo8 ret), (stackAddr s.sp, hi8 ret)] s
      (enterVector ret b vec s) := by
  have image := push_bytes (ok.pushWord ret) (s.p.pack b)
  rw [pushWord_sp] at image
  simp only [enterVector, pushWord_p, push_p]
  exact ((pushWord_bytes ok ret).trans image).of_same
    (((onlyRegisters_p _ _).onlyRead.trans (read16_onlyRead _ _ _)).trans (onlyRegisters_pc _ _).onlyRead).bytes

/-- Entering a vector as a frame pushed (R400, R469). -/
theorem enterVector_eq_withFrame {vec : Addr} (low : targetOf vec = .prgRom) (high : targetOf (vec + 1#16) = .prgRom)
    (ret : Addr) (b : Bool) (s : State) :
    enterVector ret b vec s =
      ((((ticks 5 s).withFrame ret (s.p.pack b)).setSp (s.sp - 3#8)).setP (s.p.setI true)).setPc
        (word (s.mapper.prgRead (vec + 1#16)) (s.mapper.prgRead vec)) := by
  rw [enterVector_eq low high, State.withFrame, ticks_sp]

/-- A pc written before the frame is pushed is not seen once the pc is written again. -/
theorem State.withFrame_rewrite_pc (s : State) (pc pc' ret : Addr) (image sp : Byte) (p : Flags) :
    ((((s.setPc pc').withFrame ret image).setSp sp).setP p).setPc pc =
      (((s.withFrame ret image).setSp sp).setP p).setPc pc := rfl

/-- BRK (R400): the padding byte read, then the frame with the return address pushed, I set, S three less and the pc
from the vector, in five ticks. -/
theorem brk_eq (s : State) :
    brk s =
      ((((ticks 5 (memRead s.pc s).2).withFrame (s.pc - 1#16 + s.params.brkReturnOffset) (s.p.pack true)).setSp
        (s.sp - 3#8)).setP (s.p.setI true)).setPc
        (word (s.mapper.prgRead 0xFFFF#16) (s.mapper.prgRead 0xFFFE#16)) := by
  have highAddress : 0xFFFE#16 + 1#16 = 0xFFFF#16 := rfl
  have low : targetOf 0xFFFE#16 = .prgRom := targetOf_vector (by decide)
  have high : targetOf (0xFFFE#16 + 1#16) = .prgRom := targetOf_vector (by decide)
  simp only [brk]
  rw [enterVector_eq_withFrame low high, ticks_setPc, State.withFrame_rewrite_pc, State.setPc_sp, State.setPc_p,
    State.setPc_mapper, memRead_sp, memRead_p, memRead_mapper, highAddress]

/-- BRK stores its frame and nothing else; the read of the padding byte stores nothing. -/
theorem brk_bytes {s : State} (ok : s.Ok) :
    let ret := s.pc - 1#16 + s.params.brkReturnOffset
    BytesAfter
      [(stackAddr (s.sp - 2#8), s.p.pack true), (stackAddr (s.sp - 1#8), lo8 ret), (stackAddr s.sp, hi8 ret)] s
      (brk s) := by
  intro ret
  have padding := (memRead_onlyRead s.pc s).trans (onlyRegisters_pc _ ((memRead s.pc s).2.pc + 1#16)).onlyRead
  have frame := enterVector_bytes ((ok.memRead s.pc).setPc ((memRead s.pc s).2.pc + 1#16)) ret true 0xFFFE#16
  rw [State.setPc_sp, State.setPc_p, memRead_sp, memRead_p] at frame
  exact BytesAfter.trans (l := []) padding.bytes frame

theorem exec_brk (s : State) : exec .brk s = .next (brk s) := rfl

/-- Settles O37: BRK is the read of its padding byte and then the entry of the vector. -/
theorem breakEntersTheIrqVector : Obligations.BreakEntersTheIrqVector := by
  intro s inv ret
  refine ⟨brk s, exec_brk s, ?registers, brk_bytes ((State.inv_iff s).mp inv), ?waited⟩
  case registers =>
    rw [brk_eq, ← memRead_a s.pc s, ← memRead_x s.pc s, ← memRead_y s.pc s]
    exact cpuIs_ticks_withFrame ..
  case waited =>
    rw [brk_eq]
    exact waited_ticks_withFrame ..

/-! ### RTI (R401) -/

/-- Writes of S, the flags and the pc are a register effect, whatever state they are made in. -/
theorem onlyRegisters_sp_p_pc (s : State) (sp : Byte) (p : Flags) (pc : Addr) :
    OnlyRegisters s (((s.setSp sp).setP p).setPc pc) := rfl

/-- Settles O38: RTI is five ticks and writes of S, the flags and the pc. -/
theorem returnFromInterruptPullsTheFrame : Obligations.ReturnFromInterruptPullsTheFrame := by
  intro s at'
  exact implied_of_registers ((exec_rti s).trans (congrArg _ (returnFromInterrupt_eq s)))
    (onlyRegisters_sp_p_pc ..)
    ((((SameCpu.ticks 5 s).setSp _).setP _).setPc _)

/-! ### The no-operations (R402, R421) -/

/-- A read whose byte is discarded writes no register and no flag. -/
theorem reads_of_discard {i : Instr} {o : Operand} {s : State} (meaning : exec i s = .next (readOp discard o s)) :
    Reads i o s fun _ => flagsOnly s s.p :=
  reads_of_readOp meaning (fun _ _ => rfl) fun _ _ cpu => cpu

/-- Settles O39: the implied forms are one tick, the immediate ones nothing, and the others the read class with the byte
discarded. -/
theorem nopsOnlyReadAndTick : Obligations.NopsOnlyReadAndTick := by
  intro s
  have same := SameCpu.refl s
  refine ⟨?nop, ?nop04, ?nop0C, ?nop14, ?nop1A, ?nop1C, ?nop34, ?nop3A, ?nop3C, ?nop44, ?nop54, ?nop5A, ?nop5C,
    ?nop64, ?nop74, ?nop7A, ?nop7C, ?nop80, ?nop82, ?nop89, ?nopC2, ?nopD4, ?nopDA, ?nopDC, ?nopE2, ?nopF4,
    ?nopFA, ?nopFC⟩
  case nop | nop1A | nop3A | nop5A | nop7A | nopDA | nopFA => exact implied_of_registers rfl rfl same.tick
  case nop80 | nop82 | nop89 | nopC2 | nopE2 => exact fun _ => implied_of_registers rfl rfl same
  case nop04 | nop0C | nop14 | nop1C | nop34 | nop3C | nop44 | nop54 | nop5C | nop64 | nop74 | nop7C | nopD4 | nopDC
      | nopF4 | nopFC =>
    exact fun _ => reads_of_discard rfl

end Sys2Proof.Machine
end

section
/-!
PROOFS. The body of run_frame's loop and the loop itself (60_exceptions.md): which interrupt is entered and what its
entry does, what can stop a step, and where a frame's budget ends.
-/

namespace Sys2Proof.Machine

open Sys2Proof.Claims

/-! ### Which interrupt is entered (R462, R464, R468) -/

theorem boundary_of_nmi {s : State} (nmi : s.nmiPending = true) :
    boundary s = .next (interrupt .nmi (s.setNmi false)) := by
  simp only [boundary, nmi, if_true]

theorem boundary_of_irq {s : State} (nmi : s.nmiPending = false) (irq : s.irqDue = true) :
    boundary s = .next (interrupt .irq s) := by
  simp only [boundary, nmi, irq, Bool.false_eq_true, if_false, if_true]

theorem boundary_of_quiet {s : State} (nmi : s.nmiPending = false) (irq : s.irqDue = false) :
    boundary s = runInstr s := by
  simp only [boundary, nmi, irq, Bool.false_eq_true, if_false]

theorem State.setNmi_false_of_not_pending {s : State} (nmi : s.nmiPending = false) : s.setNmi false = s := by
  rw [← nmi]
  rfl

/-- An iteration enters an interrupt with the NMI latch clear, or runs an instruction. -/
theorem boundary_cases (s : State) :
    (∃ k, boundary s = .next (interrupt k (s.setNmi false))) ∨ boundary s = runInstr s := by
  cases nmi : s.nmiPending with
  | true => exact .inl ⟨_, boundary_of_nmi nmi⟩
  | false =>
    cases irq : s.irqDue with
    | true => exact .inl ⟨.irq, by rw [boundary_of_irq nmi irq, State.setNmi_false_of_not_pending nmi]⟩
    | false => exact .inr (boundary_of_quiet nmi irq)

theorem step_of_nmi {s : State} (loaded : s.cartLoaded = true) (nmi : s.nmiPending = true) :
    step s = .next (interrupt .nmi (s.opened.setNmi false)) := by
  rw [step_of_loaded loaded, boundary_of_nmi (by rwa [State.opened_nmiPending])]

theorem step_of_irq {s : State} (loaded : s.cartLoaded = true) (nmi : s.nmiPending = false)
    (irq : s.irqDue = true) : step s = .next (interrupt .irq s.opened) := by
  rw [step_of_loaded loaded, boundary_of_irq (by rwa [State.opened_nmiPending]) (by rwa [State.opened_irqDue])]

theorem irqDue_eq_true_iff (s : State) : s.irqDue = true ↔ s.irqLine = true ∧ s.p.i = false := by
  simp only [State.irqDue, Bool.and_eq_true, Bool.not_eq_true']

theorem irqDue_eq_false_iff (s : State) : s.irqDue = false ↔ s.irqLine = false ∨ s.p.i = true := by
  simp only [State.irqDue, Bool.and_eq_false_iff, Bool.not_eq_false']

theorem interrupt_irqLine (k : Interrupt) (s : State) : (interrupt k s).irqLine = s.irqLine :=
  (settingsKept_stepRelation.interrupt k s).irqLine

/-! ### What an interrupt entry does (R469) -/

theorem interrupt_cpuIs (k : Interrupt) (s : State) :
    CpuIs (interrupt k s) s.a s.x s.y (s.sp - 3#8)
      (word (s.mapper.prgRead (k.vector + 1#16)) (s.mapper.prgRead k.vector)) { s.p with i := true } := by
  rw [interrupt_eq]
  exact cpuIs_ticks_withFrame ..

theorem interrupt_waited (k : Interrupt) (s : State) : Waited 7 s (interrupt k s) := by
  rw [interrupt_eq]
  exact waited_ticks_withFrame ..

theorem interrupt_bytes {s : State} (ok : s.Ok) (k : Interrupt) :
    BytesAfter
      [(stackAddr (s.sp - 2#8), s.p.pack false), (stackAddr (s.sp - 1#8), lo8 s.pc), (stackAddr s.sp, hi8 s.pc)] s
      (interrupt k s) := by
  have frame := enterVector_bytes ok.tick.tick s.pc false k.vector
  rw [tick_sp, tick_sp, tick_p, tick_p] at frame
  exact BytesAfter.trans (l := []) (OnlyRead.ticks 2 s).bytes frame

/-- An entry sets I, so it masks IRQ. -/
theorem interrupt_irqDue (k : Interrupt) (s : State) : (interrupt k s).irqDue = false := by
  refine (irqDue_eq_false_iff _).mpr (.inr ?_)
  rw [(interrupt_cpuIs k s).p]

/-- Settles O14: the branches of an iteration, and I set by the entry. -/
theorem interruptPriority : Obligations.InterruptPriority := by
  intro s loaded
  refine ⟨step_of_nmi loaded, fun nmi line unmasked => ?irq, fun nmi quiet => ?masked, (interrupt_irqDue · s)⟩
  case irq =>
    refine ⟨step_of_irq loaded nmi ((irqDue_eq_true_iff s).mpr ⟨line, unmasked⟩), ?_⟩
    rw [interrupt_irqLine, State.opened_irqLine, line]
  case masked => exact step_of_quiet loaded nmi ((irqDue_eq_false_iff s).mpr quiet)

/-- With an interrupt due, a step enters the one whose vector is the NMI's when an NMI is pending, the NMI latch
clear. -/
theorem step_enters {s : State} (loaded : s.cartLoaded = true)
    (due : s.nmiPending = true ∨ s.irqLine = true ∧ s.p.i = false) :
    ∃ k : Interrupt, k.vector = (if s.nmiPending then 0xFFFA#16 else 0xFFFE#16) ∧
      step s = .next (interrupt k (s.opened.setNmi false)) := by
  cases nmi : s.nmiPending with
  | true => exact ⟨.nmi, rfl, step_of_nmi loaded nmi⟩
  | false =>
    have irq := (irqDue_eq_true_iff s).mpr (due.resolve_left (by simp [nmi]))
    refine ⟨.irq, rfl, ?_⟩
    rw [step_of_irq loaded nmi irq, State.setNmi_false_of_not_pending (by rwa [State.opened_nmiPending])]

/-- Settles O13: opening a budget and clearing the NMI latch leave what the entry reads. -/
theorem interruptEntrySavesAndVectors : Obligations.InterruptEntrySavesAndVectors := by
  intro s inv loaded due vec
  obtain ⟨k, vector, entered⟩ := step_enters loaded due
  have cpu := interrupt_cpuIs k (s.opened.setNmi false)
  have stored := interrupt_bytes (((State.inv_iff s).mp inv).opened.setNmi false) k
  have same : SameBytes s (s.opened.setNmi false) := SameBytes.of_eq (by simp) (by simp) (by simp)
  simp only [State.setNmi_a, State.setNmi_x, State.setNmi_y, State.setNmi_sp, State.setNmi_p, State.setNmi_pc,
    State.setNmi_mapper, State.opened_a, State.opened_x, State.opened_y, State.opened_sp, State.opened_p,
    State.opened_pc, State.opened_mapper, vector] at cpu stored
  exact ⟨_, entered, cpu, BytesAfter.trans (l := []) same stored, interrupt_waited k _⟩

/-! ### What can stop a step (R138, R420, R440, R441, R460, R490) -/

/-- The result is a next state, or what an undefined opcode answers under the parameters of `s`: one of the 25 or one
that UNOFFICIAL_SET leaves out. -/
inductive CompletesOrUndefined (s : State) : Result → Prop where
  | next (t : State) : CompletesOrUndefined s (.next t)
  | undefined {op : Byte} {u : State} (params : u.params = s.params)
      (noHandler : op ∈ undefinedOpcodes ∨ s.params.removes op = true) :
      CompletesOrUndefined s (undefinedOpcode op u)

namespace CompletesOrUndefined

variable {s : State} {r : Result}

theorem of_params {t : State} (params : t.params = s.params) (h : CompletesOrUndefined t r) :
    CompletesOrUndefined s r := by
  cases h with
  | next u => exact .next u
  | undefined same noHandler => exact .undefined (same.trans params) (by rwa [← params])

theorem completes (h : CompletesOrUndefined s r) (policy : s.params.undefinedPolicy = .nop) : ∃ t, r = .next t := by
  cases h with
  | next t => exact ⟨t, rfl⟩
  | undefined params noHandler => exact ⟨_, undefinedOpcode_of_nop (by rwa [params]) _⟩

theorem fault_undefined {f : Fault} (h : CompletesOrUndefined s r) (fault : r = .fault f) :
    s.params.undefinedPolicy = .fault ∧
      ∃ op a, f = .undefinedOpcode op a ∧ (op ∈ undefinedOpcodes ∨ s.params.removes op = true) := by
  cases policy : s.params.undefinedPolicy with
  | nop =>
    obtain ⟨t, next⟩ := h.completes policy
    cases next.symm.trans fault
  | fault =>
    cases h with
    | next t => cases fault
    | undefined params noHandler =>
      rw [undefinedOpcode_of_fault (by rwa [params])] at fault
      cases fault
      exact ⟨rfl, _, _, rfl, noHandler⟩

theorem ne_refused (h : CompletesOrUndefined s r) (why : Refusal) : r ≠ .refused why := by
  cases h with
  | next t => simp
  | @undefined op u =>
    cases policy : u.params.undefinedPolicy with
    | nop => simp [undefinedOpcode_of_nop policy]
    | fault => simp [undefinedOpcode_of_fault policy]

end CompletesOrUndefined

/-- Of the 256 instructions only the 25 undefined ones can stop (R440, R460): every other arm answers a next state. -/
theorem exec_completesOrUndefined (i : Instr) (s : State) : CompletesOrUndefined s (exec i s) := by
  cases i with
  | undef02 | undef0B | undef12 | undef22 | undef2B | undef32 | undef42 | undef4B | undef52 | undef62 | undef6B
  | undef72 | undef8B | undef92 | undef93 | undef9B | undef9C | undef9E | undef9F | undefAB | undefB2 | undefBB
  | undefCB | undefD2 | undefF2 =>
    exact .undefined rfl (.inl (by decide))
  | _ => exact .next _

theorem runInstr_completesOrUndefined (s : State) : CompletesOrUndefined s (runInstr s) := by
  cases removed : s.params.removes (fetchByte s).1 with
  | true =>
    rw [runInstr_of_removed removed]
    exact .undefined (fetchByte_params s) (.inr removed)
  | false =>
    rw [runInstr_of_handler removed]
    exact (exec_completesOrUndefined _ _).of_params (settingsKept_stepRelation.fetchInstr s).params

theorem boundary_completesOrUndefined (s : State) : CompletesOrUndefined s (boundary s) := by
  obtain ⟨k, entered⟩ | ran := boundary_cases s
  · rw [entered]
    exact .next _
  · rw [ran]
    exact runInstr_completesOrUndefined s

theorem step_completesOrUndefined {s : State} (loaded : s.cartLoaded = true) : CompletesOrUndefined s (step s) := by
  rw [step_of_loaded loaded]
  exact (boundary_completesOrUndefined s.opened).of_params s.opened_params

theorem step_of_unloaded {s : State} (unloaded : s.cartLoaded = false) : step s = .refused .noCartridge := by
  simp only [step, unloaded, Bool.false_eq_true, if_false]

theorem runFrame_of_unloaded {s : State} (unloaded : s.cartLoaded = false) :
    runFrame s = .refused .noCartridge := by
  simp only [runFrame, unloaded, Bool.false_eq_true, if_false]

/-- A step that faults has a cartridge loaded. -/
theorem loaded_of_step_fault {s : State} {f : Fault} (fault : step s = .fault f) : s.cartLoaded = true := by
  by_contra unloaded
  rw [step_of_unloaded (by simpa using unloaded)] at fault
  cases fault

/-- Settles O11: an iteration answers a next state or what an undefined opcode answers. -/
theorem onlyUndefinedOpcodesCanStop : Obligations.OnlyUndefinedOpcodesCanStop := fun _ =>
  ⟨fun loaded policy => (step_completesOrUndefined loaded).completes policy,
    fun loaded why => (step_completesOrUndefined loaded).ne_refused why,
    fun _ fault => (step_completesOrUndefined (loaded_of_step_fault fault)).fault_undefined fault,
    fun unloaded => ⟨step_of_unloaded unloaded, runFrame_of_unloaded unloaded⟩⟩

/-! ### The ticks of one iteration (R470, R471) -/

/-- Read off the table, opcode by opcode. -/
theorem ticksOf_bounds (op : Byte) : 2 ≤ ticksOf op ∧ ticksOf op ≤ 8 :=
  of_decide_eq_true <|
    eq_of_nibbleTable_eq (f := fun op => decide (2 ≤ ticksOf op ∧ ticksOf op ≤ 8)) (g := fun _ => true) rfl op

theorem branchTicks_le (taken : Bool) (d : Byte) (s : State) : branchTicks taken d s ≤ 2 := by
  unfold branchTicks
  split_ifs <;> omega

theorem pageTicks_le (a : Addr) (i : Byte) : pageTicks a i ≤ 1 := by
  unfold pageTicks
  split_ifs <;> omega

/-- The forms with extra ticks are among the short ones, so the eight ticks of the longest are the most (R471). -/
theorem ticksOf_add_extraTicks_le {i : Instr} {op : Byte} {rest : List Byte} (bytes : encode i = op :: rest)
    (s : State) : ticksOf op + extraTicks i s ≤ 8 := by
  cases i with
  | bpl | bmi | bvc | bvs | bcc | bcs | bne | beq =>
    cases bytes
    exact (Nat.add_le_add_left (branchTicks_le ..) 2).trans (by decide)
  | oraIzy | andIzy | eorIzy | adcIzy | ldaIzy | laxIzy | cmpIzy | sbcIzy =>
    cases bytes
    exact (Nat.add_le_add_left (pageTicks_le ..) 5).trans (by decide)
  | oraAby | nop1C | oraAbx | andAby | nop3C | andAbx | eorAby | nop5C | eorAbx | adcAby | nop7C | adcAbx | ldaAby
  | ldyAbx | ldaAbx | ldxAby | laxAby | cmpAby | nopDC | cmpAbx | sbcAby | nopFC | sbcAbx =>
    cases bytes
    exact (Nat.add_le_add_left (pageTicks_le ..) 4).trans (by decide)
  | _ => exact (ticksOf_bounds op).2

/-- A loaded machine under the nop policy and without sprite DMA. -/
structure State.Runs (s : State) : Prop where
  loaded : s.cartLoaded = true
  policy : s.params.undefinedPolicy = .nop
  noDma : s.params.oamDmaEnabled = false

theorem State.Runs.kept {s t : State} (runs : s.Runs) (kept : SettingsKept s t) : t.Runs :=
  ⟨kept.cartLoaded.trans runs.loaded, by rw [kept.params, runs.policy], by rw [kept.params, runs.noDma]⟩

/-- `r` is a next state, one to eight ticks after `s`. -/
def TakesUpToEight (s : State) (r : Result) : Prop :=
  ∃ t, r = .next t ∧ t.remainingCycles < s.remainingCycles ∧ s.remainingCycles - 8 ≤ t.remainingCycles

/-- An instruction with its fetch takes the ticks of its opcode and its extras. -/
theorem exec_fetchInstr_takesUpToEight {s : State} (runs : s.Runs) :
    TakesUpToEight s (exec (fetchInstr s).1 (fetchInstr s).2) := by
  have fetch := fetchInstr_fetches s
  have fetched := runs.kept (settingsKept_stepRelation.fetchInstr s)
  obtain ⟨op, rest, t, bytes, meaning, spent⟩ :=
    everyInstructionTakesItsTicks (fetchInstr s).1 _ fetched.noDma fetched.policy
  have least := (ticksOf_bounds op).1
  have most := ticksOf_add_extraTicks_le bytes (fetchInstr s).2
  rw [fetch.remainingCycles, fetch.made.eq_encode] at spent
  exact ⟨t, meaning, by omega, by omega⟩

theorem undefinedOpcode_fetchByte_takesUpToEight {s : State} (runs : s.Runs) (op : Byte) :
    TakesUpToEight s (undefinedOpcode op (fetchByte s).2) := by
  refine ⟨_, undefinedOpcode_of_nop (by rw [fetchByte_params, runs.policy]) op, ?_⟩
  rw [State.emit_remainingCycles, tick_remainingCycles, fetchByte_remainingCycles]
  omega

theorem interrupt_takesUpToEight (k : Interrupt) (s : State) :
    TakesUpToEight s (.next (interrupt k (s.setNmi false))) := by
  have spent := (interrupt_waited k (s.setNmi false)).cycles
  rw [State.setNmi_remainingCycles] at spent
  exact ⟨_, rfl, by omega, by omega⟩

theorem boundary_takesUpToEight {s : State} (runs : s.Runs) : TakesUpToEight s (boundary s) := by
  obtain ⟨k, entered⟩ | ran := boundary_cases s
  · rw [entered]
    exact interrupt_takesUpToEight k s
  · rw [ran]
    cases removed : s.params.removes (fetchByte s).1 with
    | true =>
      rw [runInstr_of_removed removed]
      exact undefinedOpcode_fetchByte_takesUpToEight runs _
    | false =>
      rw [runInstr_of_handler removed]
      exact exec_fetchInstr_takesUpToEight runs

/-! ### The loop (R462, R470) -/

/-- With budget left, an iteration is a step. -/
theorem step_eq_boundary {s : State} (loaded : s.cartLoaded = true) (positive : 0 < s.remainingCycles) :
    step s = boundary s := by
  rw [step_of_loaded loaded, State.opened, if_pos positive]

theorem frameLoop_of_spent {s : State} (spent : ¬ 0 < s.remainingCycles) (n : Nat) : frameLoop n s = .next s := by
  cases n with
  | zero => rfl
  | succ n => exact if_neg spent

theorem frameLoop_of_next {s t : State} (positive : 0 < s.remainingCycles) (next : boundary s = .next t) (n : Nat) :
    frameLoop (n + 1) s = frameLoop n t := by
  simp only [frameLoop, if_pos positive, next]

/-- The loop ends with the budget spent, and an iteration that spends it overshoots by 7 at most. -/
theorem frameLoop_ends {n : Nat} {s : State} (runs : s.Runs) (enough : s.remainingCycles ≤ n) :
    ∃ t, frameLoop n s = .next t ∧ t.remainingCycles ≤ 0 ∧ (-7 ≤ s.remainingCycles → -7 ≤ t.remainingCycles) := by
  induction n generalizing s with
  | zero => exact ⟨s, rfl, enough, id⟩
  | succ n ih =>
    by_cases positive : 0 < s.remainingCycles
    · obtain ⟨u, next, fewer, most⟩ := boundary_takesUpToEight runs
      have kept := settingsKept_stepRelation.step ((step_eq_boundary runs.loaded positive).trans next)
      obtain ⟨t, loop, spent, overshoot⟩ := ih (runs.kept kept) (by omega)
      rw [frameLoop_of_next positive next]
      exact ⟨t, loop, spent, fun _ => overshoot (by omega)⟩
    · rw [frameLoop_of_spent positive]
      exact ⟨s, rfl, by omega, id⟩

theorem runFrame_of_loaded {s : State} (loaded : s.cartLoaded = true) :
    runFrame s = frameLoop (s.addCycles totalCycles).remainingCycles.toNat (s.addCycles totalCycles) := by
  simp only [runFrame, loaded, if_true]

/-- Settles O12: the loop from the budget that run_frame opens. -/
theorem frameRunEndsWithItsBudget : Obligations.FrameRunEndsWithItsBudget := by
  intro s loaded policy noDma
  have runs : (s.addCycles totalCycles).Runs := ⟨loaded, policy, noDma⟩
  obtain ⟨t, loop, spent, overshoot⟩ := frameLoop_ends runs (Int.self_le_toNat _)
  rw [State.addCycles_remainingCycles, totalCycles] at overshoot
  exact ⟨t, (runFrame_of_loaded loaded).trans loop, spent, fun positive => overshoot (by omega)⟩

end Sys2Proof.Machine
end

section
/-!
PROOFS. The loader (60_exceptions.md R490; 66_mapper.md R620, R660, R661).
-/

namespace Sys2Proof.Machine

/-! ### The memory of an image's bytes -/

theorem Memory.find_ofBytes_of_lt (bytes : List Byte) {j k : Nat} (h : k < j) :
    Memory.find (Memory.ofBytes j bytes) k = none := by
  induction bytes generalizing j with
  | nil => rfl
  | cons b bytes ih =>
    have rest := ih (j := j + 1) (by omega)
    simp only [Memory.ofBytes]
    split
    · exact rest
    · rw [Memory.find, if_neg (by omega), if_pos h]

/-- The memory listed from `j` on reads back each byte, the zeros unlisted. -/
theorem Memory.read_ofBytes (bytes : List Byte) (j k : Nat) :
    Memory.read (Memory.ofBytes j bytes) (j + k) 0#8 = bytes.getD k 0#8 := by
  induction bytes generalizing j k with
  | nil => rfl
  | cons b bytes ih =>
    cases k with
    | zero =>
      simp only [Memory.ofBytes]
      split
      case isTrue zero => rw [Memory.read, Memory.find_ofBytes_of_lt bytes (by omega), zero]; rfl
      case isFalse => rw [Memory.read, Memory.find, if_pos (by omega)]; rfl
    | succ k =>
      have rest : Memory.read (Memory.ofBytes (j + 1) bytes) (j + (k + 1)) 0#8 = bytes.getD k 0#8 := by
        rw [← ih (j + 1) k, Nat.add_right_comm, Nat.add_assoc]
      simp only [Memory.ofBytes]
      split
      · exact rest
      · rw [Memory.read, Memory.find, if_neg (by omega), if_neg (by omega)]
        exact rest

/-- So does the memory of a stretch of an image. -/
theorem Memory.read_ofBytes_slice (image : List Byte) (start : Nat) {size k : Nat} (h : k < size) :
    Memory.read (Memory.ofBytes 0 ((image.drop start).take size)) k 0#8 = image.getD (start + k) 0#8 := by
  have read := Memory.read_ofBytes ((image.drop start).take size) 0 k
  rw [Nat.zero_add] at read
  rw [read, List.getD_eq_getElem?_getD, List.getElem?_take_of_lt h, List.getElem?_drop,
    List.getD_eq_getElem?_getD]

/-! ### The header in whole numbers (R660) -/

/-- Byte `k` of an image as a number, 0 past its end. -/
def headerAt (image : List Byte) (k : Nat) : Nat := (image.getD k 0#8).toNat

theorem headerAt_eq_zero_iff (image : List Byte) (k : Nat) : headerAt image k = 0 ↔ image.getD k 0#8 = 0#8 :=
  (BitVec.toNat_eq (y := 0#8)).symm

/-- The mapper number: the high nibble of byte 7 over that of byte 6. -/
def mapperNumber (image : List Byte) : Nat := headerAt image 7 / 16 * 16 + headerAt image 6 / 16

theorem toNat_highNibble (b : Byte) : (b &&& 0xF0#8).toNat = 2 ^ 4 * (b.toNat / 2 ^ 4) :=
  eq_of_nibbleTable_eq (f := fun b => (b &&& 0xF0#8).toNat) (g := fun b => 2 ^ 4 * (b.toNat / 2 ^ 4)) rfl b

theorem toNat_mapperId (image : List Byte) : (mapperId image).toNat = mapperNumber image := by
  have low : (image.getD 6 0#8).toNat / 2 ^ 4 < 2 ^ 4 := by omega
  rw [mapperId, BitVec.toNat_or, toNat_highNibble, BitVec.toNat_ushiftRight, Nat.shiftRight_eq_div_pow,
    ← Nat.two_pow_add_eq_or_of_lt low, Nat.mul_comm]
  rfl

/-- The variants R660 gives a mapper number. -/
theorem mapperKindOf_mapperId (image : List Byte) :
    mapperKindOf (mapperId image) =
      if mapperNumber image = 0 then some .nrom else if mapperNumber image = 1 then some .mmc1 else none := by
  rw [← toNat_mapperId]
  simp only [mapperKindOf, BitVec.toNat_eq]
  rfl

/-! ### What the loader answers (R661) -/

/-- The image is shorter than its header says, or its mapper number or its PRG size has no meaning. -/
def Unloadable (image : List Byte) : Prop :=
  image.length < 16 + 16384 * headerAt image 4 + 8192 * headerAt image 5 ∨
    mapperNumber image ≠ 0 ∧ mapperNumber image ≠ 1 ∨ headerAt image 4 = 0

/-- The variant of a loadable image. -/
def variantOf (image : List Byte) : MapperKind := if mapperNumber image = 0 then .nrom else .mmc1

theorem loadImage_of_unloadable {image : List Byte} (bad : Unloadable image) :
    ∃ e, loadImage (some image) = .error e := by
  unfold loadImage
  dsimp only
  split
  case isTrue => exact ⟨_, rfl⟩
  case isFalse long =>
    obtain truncated | ⟨notNrom, notMmc1⟩ | noPrg := bad
    · exact absurd truncated long
    · rw [mapperKindOf_mapperId, if_neg notNrom, if_neg notMmc1]
      exact ⟨_, rfl⟩
    · cases mapperKindOf (mapperId image) with
      | none => exact ⟨_, rfl⟩
      | some kind => exact ⟨_, if_pos ((headerAt_eq_zero_iff image 4).mp noPrg)⟩

theorem loadImage_of_loadable {image : List Byte} (good : ¬ Unloadable image) :
    loadImage (some image) = .ok (buildMapper (variantOf image) image) := by
  simp only [Unloadable, not_or, not_and] at good
  obtain ⟨long, number, prg⟩ := good
  have kind : mapperKindOf (mapperId image) = some (variantOf image) := by
    rw [mapperKindOf_mapperId, variantOf]
    split_ifs with nrom mmc1
    · rfl
    · rfl
    · exact absurd mmc1 (number nrom)
  rw [headerAt_eq_zero_iff] at prg
  unfold loadImage
  dsimp only
  rw [kind]
  exact (if_neg long).trans (if_neg prg)

theorem load_of_error {file : Option (List Byte)} {e : LoadError} (h : loadImage file = .error e) (s : State) :
    load file s = .refused (.fatalLoad e) := by
  simp only [load, h]

theorem load_of_ok {file : Option (List Byte)} {m : Mapper} (h : loadImage file = .ok m) (s : State) :
    load file s = .next { s with mapper := m, cartLoaded := true } := by
  simp only [load, h]

/-! ### The mapper built (R620) -/

/-- A declared size of 0 counts as one unit. -/
theorem ite_zero_one_eq_max (n : Nat) : (if n = 0 then 1 else n) = max 1 n := by
  split <;> omega

theorem buildMapper_mirroring (kind : MapperKind) (image : List Byte) :
    (buildMapper kind image).mirroring = if headerAt image 6 % 2 = 1 then .vertical else .horizontal := by
  simp only [buildMapper, bit_eq_decide, pow_zero, Nat.div_one, decide_eq_true_eq]
  rfl

theorem buildMapper_prg (kind : MapperKind) (image : List Byte) {k : Nat} (h : k < 16384 * headerAt image 4) :
    Memory.read (buildMapper kind image).prg k 0#8 = image.getD (16 + k) 0#8 :=
  Memory.read_ofBytes_slice image 16 h

theorem buildMapper_chr (kind : MapperKind) (image : List Byte) {k : Nat} (h : k < 8192 * headerAt image 5) :
    Memory.read (buildMapper kind image).chr k 0#8 = image.getD (16 + 16384 * headerAt image 4 + k) 0#8 :=
  Memory.read_ofBytes_slice image _ h

/-- Settles O60: a loadable image gives the mapper built from it, and no other image gives one. -/
theorem loaderRefusesAndBuilds : Obligations.LoaderRefusesAndBuilds := by
  intro s file h id bad
  refine ⟨rfl, fun unloadable => ?refused, fun loadable => ?built⟩
  case refused =>
    obtain ⟨e, error⟩ := loadImage_of_unloadable unloadable
    exact ⟨e, load_of_error error s⟩
  case built =>
    exact ⟨buildMapper (variantOf file) file, load_of_ok (loadImage_of_loadable loadable) s, rfl, rfl,
      ite_zero_one_eq_max (h 5), rfl, ite_zero_one_eq_max (h 8), buildMapper_mirroring _ file, rfl, rfl, rfl, rfl, rfl,
      rfl, fun _ => buildMapper_prg _ file, fun _ => buildMapper_chr _ file⟩

end Sys2Proof.Machine
end

section
/-!
PROOFS. The stages of a dot by name, and which of them leaves each field of the PPU as it is after the dot (65_ppu.md
R560 to R590).
-/

namespace Sys2Proof.Machine

/-! ### Positions and enables in whole numbers -/

/-- Rendering is enabled on a rendering line (R561, R562). -/
abbrev Ppu.Pipelining (p : Ppu) : Prop := p.rendering = true ∧ (p.scanline < 240 ∨ p.scanline = 261)

/-- Rendering is enabled on a visible line (R561, R562). -/
abbrev Ppu.Showing (p : Ppu) : Prop := p.rendering = true ∧ p.scanline < 240

/-- The dot of this position writes a pixel (R561, R562, R590). -/
abbrev Ppu.Draws (p : Ppu) : Prop := p.Showing ∧ 1 ≤ p.dot ∧ p.dot ≤ 256

/-- The status flags are cleared at this position (R567). -/
abbrev Ppu.ClearsStatus (p : Ppu) : Prop := p.scanline = 261 ∧ p.dot = 1

/-- Rendering is off exactly when PPUMASK bits 3 and 4 are clear (R562). -/
theorem Ppu.rendering_eq_false_iff (p : Ppu) : p.rendering = false ↔ p.mask &&& 0x18#8 = 0#8 := by
  have masked : ∀ d : Byte, (bit d 3 || bit d 4) = false ↔ d &&& 0x18#8 = 0#8 := by decide
  exact masked p.mask

/-! ### The status work -/

/-- The status work changes five fields at most. -/
theorem Ppu.status_onlyFlags (p : Ppu) :
    ∃ b h o n z, p.status = { p with vblank := b, spr0hit := h, sprOverflow := o, spCount := n, spZero := z } := by
  unfold Ppu.status
  split
  · exact ⟨_, p.spr0hit, p.sprOverflow, p.spCount, p.spZero, rfl⟩
  · split
    · exact ⟨_, _, _, _, _, rfl⟩
    · exact ⟨p.vblank, p.spr0hit, p.sprOverflow, p.spCount, p.spZero, rfl⟩

/-- The status work of dot (261, 1) (R567). -/
theorem Ppu.status_of_clears {p : Ppu} (h : p.ClearsStatus) :
    p.status = { p with vblank := false, spr0hit := false, sprOverflow := false, spCount := 0, spZero := false } := by
  unfold Ppu.status Ppu.atVblankStart
  rw [if_neg (by simp [h.1]), if_pos h]

/-- The status work of dot (241, 1) (R566). -/
theorem Ppu.status_of_vblank {p : Ppu} (h : p.scanline = 241 ∧ p.dot = 1) : p.status = { p with vblank := true } := by
  unfold Ppu.status Ppu.atVblankStart
  rw [if_pos (decide_eq_true h)]

/-- The other flags are kept but at (261, 1). -/
theorem Ppu.status_of_not_clears {p : Ppu} (h : ¬ p.ClearsStatus) : ∃ b, p.status = { p with vblank := b } := by
  unfold Ppu.status
  rw [if_neg (c := p.scanline = 261 ∧ p.dot = 1) h]
  split
  · exact ⟨_, rfl⟩
  · exact ⟨p.vblank, rfl⟩

/-! ### The stages -/

/-- The PPU after the status and the background work of its position. -/
def Ppu.afterBackground (m : Mapper) (p : Ppu) : Ppu :=
  if p.Pipelining then p.status.background m else p.status

/-- The PPU after the sprite work as well. -/
def Ppu.afterSprites (m : Mapper) (p : Ppu) : Ppu :=
  if p.Showing then (p.afterBackground m).sprites m else p.afterBackground m

theorem Ppu.afterBackground_only (m : Mapper) (p : Ppu) : Ppu.OnlyBackground p.status (p.afterBackground m) := by
  unfold Ppu.afterBackground
  split
  · exact Ppu.background_only ..
  · exact Ppu.OnlyBackground.refl _

theorem Ppu.afterSprites_only (m : Mapper) (p : Ppu) :
    Ppu.OnlySprites (p.afterBackground m) (p.afterSprites m) := by
  unfold Ppu.afterSprites
  split
  · exact Ppu.sprites_only ..
  · exact Ppu.OnlySprites.refl _

/-- On a visible line there is no status work before the background's. -/
theorem Ppu.afterBackground_only_of_visible {p : Ppu} (h : p.scanline < 240) (m : Mapper) :
    Ppu.OnlyBackground p (p.afterBackground m) := by
  have only := p.afterBackground_only m
  rwa [Ppu.status_of_visible h] at only

/-- A dot is its stages, then the pixel, then the advance. -/
theorem Ppu.step_eq (m : Mapper) (p : Ppu) :
    p.step m =
      (if p.Draws then (p.afterSprites m).output (p.dot - 1) else p.afterSprites m).advance := by
  obtain ⟨b, -, background, k, -, sprites, step⟩ := p.step_background m
  simp only [Ppu.renderingLine, decide_eq_true_eq] at background
  simp only [Ppu.visibleLine, decide_eq_true_eq, background, ← and_assoc (a := p.rendering = true)] at sprites step
  rw [step, sprites]
  rfl

/-- After the sprite work only the pixel's output and the position change. -/
theorem Ppu.step_onlyOutput (m : Mapper) (p : Ppu) :
    ∃ l d h fb, p.step m = { p.afterSprites m with scanline := l, dot := d, spr0hit := h, fb := fb } := by
  rw [Ppu.step_eq]
  split
  · obtain ⟨l, d, advance⟩ := ((p.afterSprites m).output (p.dot - 1)).advance_eq
    exact ⟨l, d, _, _, advance⟩
  · obtain ⟨l, d, advance⟩ := (p.afterSprites m).advance_eq
    exact ⟨l, d, _, _, advance⟩

/-! ### The position -/

@[simp] theorem Ppu.afterSprites_scanline (m : Mapper) (p : Ppu) : (p.afterSprites m).scanline = p.scanline := by
  rw [(p.afterSprites_only m).scanline, (p.afterBackground_only m).scanline, Ppu.status_scanline]

@[simp] theorem Ppu.afterSprites_dot (m : Mapper) (p : Ppu) : (p.afterSprites m).dot = p.dot := by
  rw [(p.afterSprites_only m).dot, (p.afterBackground_only m).dot, Ppu.status_dot]

theorem Ppu.advance_position (p : Ppu) :
    p.advance.dot = (if p.dot = 340 then 0 else p.dot + 1) ∧
      p.advance.scanline =
        if p.dot = 340 then (if p.scanline = 261 then 0 else p.scanline + 1) else p.scanline := by
  unfold Ppu.advance
  by_cases last : p.dot = 340 <;> simp [last]

/-- Where the PPU stands after a dot (R560). -/
theorem Ppu.step_position (m : Mapper) (p : Ppu) :
    (p.step m).dot = (if p.dot = 340 then 0 else p.dot + 1) ∧
      (p.step m).scanline =
        if p.dot = 340 then (if p.scanline = 261 then 0 else p.scanline + 1) else p.scanline := by
  have worked (q : Ppu) (d : q.dot = p.dot) (l : q.scanline = p.scanline) := d ▸ l ▸ q.advance_position
  rw [Ppu.step_eq]
  split
  · exact worked _ (p.afterSprites_dot m) (p.afterSprites_scanline m)
  · exact worked _ (p.afterSprites_dot m) (p.afterSprites_scanline m)

/-! ### Which stage leaves a field as it is after the dot -/

/-- `q` has v and the background pipeline of `p`. -/
structure Ppu.SameBackground (p q : Ppu) : Prop where
  v : q.v = p.v
  ntLatch : q.ntLatch = p.ntLatch
  atLatch : q.atLatch = p.atLatch
  ptLoLatch : q.ptLoLatch = p.ptLoLatch
  ptHiLatch : q.ptHiLatch = p.ptHiLatch
  bgLo : q.bgLo = p.bgLo
  bgHi : q.bgHi = p.bgHi
  atLo : q.atLo = p.atLo
  atHi : q.atHi = p.atHi

theorem Ppu.step_sameBackground (m : Mapper) (p : Ppu) : Ppu.SameBackground (p.afterBackground m) (p.step m) := by
  have k := p.afterSprites_only m
  obtain ⟨l, d, h, fb, step⟩ := p.step_onlyOutput m
  rw [step]
  exact ⟨k.v, k.ntLatch, k.atLatch, k.ptLoLatch, k.ptHiLatch, k.bgLo, k.bgHi, k.atLo, k.atHi⟩

/-- `q` has the sprite pipeline of `p`. -/
structure Ppu.SameSprites (p q : Ppu) : Prop where
  sprOverflow : q.sprOverflow = p.sprOverflow
  sec : q.sec = p.sec
  secCount : q.secCount = p.secCount
  secHasZero : q.secHasZero = p.secHasZero
  spCount : q.spCount = p.spCount
  slots : q.slots = p.slots
  spZero : q.spZero = p.spZero

theorem Ppu.step_sameSprites (m : Mapper) (p : Ppu) : Ppu.SameSprites (p.afterSprites m) (p.step m) := by
  obtain ⟨l, d, h, fb, step⟩ := p.step_onlyOutput m
  rw [step]
  constructor <;> rfl

end Sys2Proof.Machine
end

section
/-!
PROOFS. The scroll registers: the steps and the copies of v field by field, and the dots that make them (65_ppu.md R554,
R565, R568, R569).
-/

namespace Sys2Proof.Machine

/-! ### The steps in whole numbers -/

/-- Coarse X cleared and the horizontal nametable bit flipped (R554). -/
theorem toNat_flipHorizontal (v : Scroll) :
    ((v &&& 0x7FE0#15) ^^^ 0x0400#15).toNat % 32 = 0 ∧
      ((v &&& 0x7FE0#15) ^^^ 0x0400#15).toNat / 32 % 32 = v.toNat / 32 % 32 ∧
      ((v &&& 0x7FE0#15) ^^^ 0x0400#15).toNat / 2048 = v.toNat / 2048 ∧
      ((v &&& 0x7FE0#15) ^^^ 0x0400#15).toNat / 1024 % 2 = (v.toNat / 1024 + 1) % 2 := by
  have coarseX : ((v &&& 0x7FE0#15) ^^^ 0x0400#15).toNat / 2 ^ 0 % 2 ^ 5 = (0#5).toNat / 2 ^ 0 % 2 ^ 5 := field_eq 0 0 5
  have coarseY : ((v &&& 0x7FE0#15) ^^^ 0x0400#15).toNat / 2 ^ 5 % 2 ^ 5 = v.toNat / 2 ^ 5 % 2 ^ 5 := field_eq 5 5 5
  have flipped : ((v &&& 0x7FE0#15) ^^^ 0x0400#15).toNat / 2 ^ 10 % 2 ^ 1 = (~~~v).toNat / 2 ^ 10 % 2 ^ 1 :=
    field_eq 10 10 1
  have high : ((v &&& 0x7FE0#15) ^^^ 0x0400#15).toNat / 2 ^ 11 % 2 ^ 4 = v.toNat / 2 ^ 11 % 2 ^ 4 := field_eq 11 11 4
  rw [BitVec.toNat_not] at flipped
  simp only [BitVec.toNat_ofNat] at coarseX
  omega

theorem incCoarseX_of_last {v : Scroll} (h : v.toNat % 32 = 31) :
    incCoarseX v = (v &&& 0x7FE0#15) ^^^ 0x0400#15 := if_pos h

theorem toNat_incCoarseX_of_not_last {v : Scroll} (h : v.toNat % 32 ≠ 31) : (incCoarseX v).toNat = v.toNat + 1 := by
  rw [incCoarseX, if_neg (show ¬ coarseX v = 31 from h), BitVec.toNat_add]
  simp only [BitVec.toNat_ofNat]
  omega

/-- The coarse X step (R568). -/
theorem incCoarseX_fields (v : Scroll) :
    (incCoarseX v).toNat % 32 = (v.toNat % 32 + 1) % 32 ∧ (incCoarseX v).toNat / 32 % 32 = v.toNat / 32 % 32 ∧
      (incCoarseX v).toNat / 2048 = v.toNat / 2048 ∧
      (incCoarseX v).toNat / 1024 % 2 = (v.toNat / 1024 + if v.toNat % 32 = 31 then 1 else 0) % 2 := by
  by_cases last : v.toNat % 32 = 31
  · obtain ⟨x, y, high, flipped⟩ := toNat_flipHorizontal v
    rw [incCoarseX_of_last last, if_pos last]
    exact ⟨by omega, y, high, flipped⟩
  · have := toNat_incCoarseX_of_not_last last
    rw [if_neg last]
    omega

/-- `v` with coarse Y replaced. -/
def withCoarseY (v : Scroll) (y : BitVec 5) : Scroll := (v &&& 0x7C1F#15) ||| (y.setWidth 15 <<< 5)

theorem toNat_withCoarseY (v : Scroll) (y : BitVec 5) :
    (withCoarseY v y).toNat % 32 = v.toNat % 32 ∧ (withCoarseY v y).toNat / 32 % 32 = y.toNat ∧
      (withCoarseY v y).toNat / 1024 = v.toNat / 1024 := by
  unfold withCoarseY
  have coarseX : ((v &&& 0x7C1F#15) ||| (y.setWidth 15 <<< 5)).toNat / 2 ^ 0 % 2 ^ 5 = v.toNat / 2 ^ 0 % 2 ^ 5 :=
    field_eq 0 0 5
  have coarseY : ((v &&& 0x7C1F#15) ||| (y.setWidth 15 <<< 5)).toNat / 2 ^ 5 % 2 ^ 5 = y.toNat / 2 ^ 0 % 2 ^ 5 :=
    field_eq 5 0 5
  have high : ((v &&& 0x7C1F#15) ||| (y.setWidth 15 <<< 5)).toNat / 2 ^ 10 % 2 ^ 5 = v.toNat / 2 ^ 10 % 2 ^ 5 :=
    field_eq 10 10 5
  omega

/-- `v` with fine Y cleared and, when `flip` is set, the vertical nametable bit flipped. -/
def withoutFineY (v : Scroll) (flip : Bool) : Scroll :=
  if flip then (v &&& 0x0FFF#15) ^^^ 0x0800#15 else v &&& 0x0FFF#15

theorem toNat_withoutFineY (v : Scroll) (flip : Bool) :
    (withoutFineY v flip).toNat % 2048 = v.toNat % 2048 ∧
      (withoutFineY v flip).toNat / 2048 % 2 = (v.toNat / 2048 + if flip then 1 else 0) % 2 ∧
      (withoutFineY v flip).toNat / 4096 = 0 := by
  cases flip with
  | false =>
    have low : (v &&& 0x0FFF#15).toNat / 2 ^ 0 % 2 ^ 12 = v.toNat / 2 ^ 0 % 2 ^ 12 := field_eq 0 0 12
    have fineY : (v &&& 0x0FFF#15).toNat / 2 ^ 12 % 2 ^ 3 = (0#3).toNat / 2 ^ 0 % 2 ^ 3 := field_eq 12 0 3
    simp only [BitVec.toNat_ofNat] at fineY
    simp only [withoutFineY, Bool.false_eq_true, if_false]
    omega
  | true =>
    have low : ((v &&& 0x0FFF#15) ^^^ 0x0800#15).toNat / 2 ^ 0 % 2 ^ 11 = v.toNat / 2 ^ 0 % 2 ^ 11 := field_eq 0 0 11
    have flipped : ((v &&& 0x0FFF#15) ^^^ 0x0800#15).toNat / 2 ^ 11 % 2 ^ 1 = (~~~v).toNat / 2 ^ 11 % 2 ^ 1 :=
      field_eq 11 11 1
    have fineY : ((v &&& 0x0FFF#15) ^^^ 0x0800#15).toNat / 2 ^ 12 % 2 ^ 3 = (0#3).toNat / 2 ^ 0 % 2 ^ 3 :=
      field_eq 12 0 3
    rw [BitVec.toNat_not] at flipped
    simp only [BitVec.toNat_ofNat] at fineY
    simp only [withoutFineY, if_true]
    omega

theorem coarseY_masked (v : Scroll) : coarseY (v &&& 0x0FFF#15) = v.toNat / 32 % 32 := by
  have low : (v &&& 0x0FFF#15).toNat / 2 ^ 5 % 2 ^ 5 = v.toNat / 2 ^ 5 % 2 ^ 5 := field_eq 5 5 5
  exact low

theorem toNat_incY_of_fineY {v : Scroll} (h : v.toNat / 4096 < 7) : (incY v).toNat = v.toNat + 4096 := by
  rw [incY, if_pos (show fineY v < 7 from h), BitVec.toNat_add]
  simp only [BitVec.toNat_ofNat]
  omega

/-- Coarse Y after the Y step from the last fine Y. -/
def nextCoarseY (y : Nat) : Nat := if y = 29 ∨ y = 31 then 0 else y + 1

theorem nextCoarseY_lt {y : Nat} (h : y < 32) : nextCoarseY y < 32 := by
  unfold nextCoarseY
  split <;> omega

theorem nextCoarseY_eq {y : Nat} (h : y < 32) : nextCoarseY y = if y = 29 then 0 else (y + 1) % 32 := by
  unfold nextCoarseY
  split_ifs <;> omega

/-- The Y step from the last fine Y (R568). -/
theorem incY_of_last_fineY {v : Scroll} (h : v.toNat / 4096 = 7) :
    incY v = withCoarseY (withoutFineY v (decide (v.toNat / 32 % 32 = 29)))
      (BitVec.ofNat 5 (nextCoarseY (v.toNat / 32 % 32))) := by
  have small : nextCoarseY (v.toNat / 32 % 32) < 32 := nextCoarseY_lt (Nat.mod_lt _ (by decide))
  have extended : (BitVec.ofNat 5 (nextCoarseY (v.toNat / 32 % 32))).setWidth 15 =
      BitVec.ofNat 15 (nextCoarseY (v.toNat / 32 % 32)) := by
    refine BitVec.eq_of_toNat_eq ?_
    simp only [BitVec.toNat_setWidth, BitVec.toNat_ofNat]
    omega
  rw [incY, if_neg (show ¬ fineY v < 7 from by unfold fineY; omega), withCoarseY, extended]
  simp only [coarseY_masked, withoutFineY, decide_eq_true_eq, nextCoarseY]

/-- The Y step (R568). -/
theorem incY_fields (v : Scroll) :
    (incY v).toNat % 32 = v.toNat % 32 ∧ (incY v).toNat / 1024 % 2 = v.toNat / 1024 % 2 ∧
      (incY v).toNat / 4096 = (v.toNat / 4096 + 1) % 8 ∧
      (incY v).toNat / 32 % 32 =
        (if v.toNat / 4096 < 7 then v.toNat / 32 % 32
          else if v.toNat / 32 % 32 = 29 then 0 else (v.toNat / 32 % 32 + 1) % 32) ∧
      (incY v).toNat / 2048 % 2 =
        (v.toNat / 2048 + if v.toNat / 4096 = 7 ∧ v.toNat / 32 % 32 = 29 then 1 else 0) % 2 := by
  by_cases fine : v.toNat / 4096 < 7
  · have := toNat_incY_of_fineY fine
    rw [if_pos fine, if_neg (by omega)]
    omega
  · have last : v.toNat / 4096 = 7 := by omega
    have next := nextCoarseY_eq (y := v.toNat / 32 % 32) (Nat.mod_lt _ (by decide))
    have small := nextCoarseY_lt (y := v.toNat / 32 % 32) (Nat.mod_lt _ (by decide))
    obtain ⟨x, y, high⟩ := toNat_withCoarseY (withoutFineY v (decide (v.toNat / 32 % 32 = 29)))
      (BitVec.ofNat 5 (nextCoarseY (v.toNat / 32 % 32)))
    obtain ⟨low, flipped, cleared⟩ := toNat_withoutFineY v (decide (v.toNat / 32 % 32 = 29))
    rw [← incY_of_last_fineY last] at x y high
    rw [BitVec.toNat_ofNat, Nat.mod_eq_of_lt small, next] at y
    simp only [decide_eq_true_eq] at flipped
    have upper : (incY v).toNat / 2048 = (withoutFineY v (decide (v.toNat / 32 % 32 = 29))).toNat / 2048 := by omega
    rw [if_neg fine, if_congr (and_iff_right last) rfl rfl]
    exact ⟨by omega, by omega, by omega, y, upper ▸ flipped⟩

/-- The horizontal copy (R569). -/
theorem copyHorizontal_fields (v t : Scroll) :
    (copyHorizontal v t).toNat % 32 = t.toNat % 32 ∧ (copyHorizontal v t).toNat / 1024 % 2 = t.toNat / 1024 % 2 ∧
      (copyHorizontal v t).toNat / 32 % 32 = v.toNat / 32 % 32 ∧
      (copyHorizontal v t).toNat / 2048 = v.toNat / 2048 := by
  unfold copyHorizontal
  have coarseX : ((v &&& 0x7BE0#15) ||| (t &&& 0x041F#15)).toNat / 2 ^ 0 % 2 ^ 5 = t.toNat / 2 ^ 0 % 2 ^ 5 :=
    field_eq 0 0 5
  have nametable : ((v &&& 0x7BE0#15) ||| (t &&& 0x041F#15)).toNat / 2 ^ 10 % 2 ^ 1 = t.toNat / 2 ^ 10 % 2 ^ 1 :=
    field_eq 10 10 1
  have coarseY : ((v &&& 0x7BE0#15) ||| (t &&& 0x041F#15)).toNat / 2 ^ 5 % 2 ^ 5 = v.toNat / 2 ^ 5 % 2 ^ 5 :=
    field_eq 5 5 5
  have high : ((v &&& 0x7BE0#15) ||| (t &&& 0x041F#15)).toNat / 2 ^ 11 % 2 ^ 4 = v.toNat / 2 ^ 11 % 2 ^ 4 :=
    field_eq 11 11 4
  omega

/-- The vertical copy is the horizontal one with v and t exchanged (R569). -/
theorem copyVertical_eq (v t : Scroll) : copyVertical v t = copyHorizontal t v := BitVec.or_comm ..

/-- Settles O52, field by field. -/
theorem scrollIncrementsAndCopies : Obligations.ScrollIncrementsAndCopies := by
  intro v t
  refine ⟨incCoarseX_fields v, incY_fields v, copyHorizontal_fields v t, ?_⟩
  rw [copyVertical_eq]
  exact copyHorizontal_fields t v

/-! ### The schedule of v -/

/-- A fetch leaves the position, v and t. -/
theorem Ppu.fetch_scroll (m : Mapper) (p : Ppu) (r : Nat) :
    (p.fetch m r).dot = p.dot ∧ (p.fetch m r).scanline = p.scanline ∧ (p.fetch m r).v = p.v ∧
      (p.fetch m r).t = p.t := by
  unfold Ppu.fetch
  split <;> exact ⟨rfl, rfl, rfl, rfl⟩

/-- A stage that may change v. -/
theorem Ppu.ite_v (c : Prop) [Decidable c] (p : Ppu) (v : Scroll) :
    (if c then { p with v := v } else p) = { p with v := if c then v else p.v } := by
  split <;> rfl

/-- v after the background work of dot `d` of line `l` (R565, 4 to 7). -/
def scrollAfter (d l : Nat) (v t : Scroll) : Scroll :=
  if d = 256 then incY (incCoarseX v)
  else if d = 257 then copyHorizontal v t
  else if l = 261 ∧ 280 ≤ d ∧ d ≤ 304 then copyVertical v t
  else if d % 8 = 0 ∧ (8 ≤ d ∧ d < 256 ∨ d = 328 ∨ d = 336) then incCoarseX v
  else v

/-- The schedule as its stages one after the other. -/
theorem scrollAfter_eq (d l : Nat) (v t : Scroll) :
    (let stepped := if coarseXDot d = true then incCoarseX v else v
      let stepped := if d = 256 then incY stepped else stepped
      let copied := if d = 257 then copyHorizontal stepped t else stepped
      if l = 261 ∧ 280 ≤ d ∧ d ≤ 304 then copyVertical copied t else copied) = scrollAfter d l v t := by
  simp only [scrollAfter, coarseXDot, decide_eq_true_eq]
  by_cases last : d = 256
  · simp [last]
  · by_cases horizontal : d = 257
    · simp [horizontal]
    · by_cases vertical : l = 261 ∧ 280 ≤ d ∧ d ≤ 304
      · have idle : ¬ (8 ≤ d ∧ d ≤ 256 ∧ d % 8 = 0 ∨ d = 328 ∨ d = 336) := by omega
        simp only [last, horizontal, vertical, idle, and_self, if_true, if_false]
      · have same : (8 ≤ d ∧ d ≤ 256 ∧ d % 8 = 0 ∨ d = 328 ∨ d = 336) ↔
            (d % 8 = 0 ∧ (8 ≤ d ∧ d < 256 ∨ d = 328 ∨ d = 336)) := by omega
        simp only [last, horizontal, vertical, same, if_false]

theorem Ppu.background_v (m : Mapper) (p : Ppu) :
    (p.background m).v = scrollAfter p.dot p.scanline p.v p.t := by
  unfold Ppu.background
  extract_lets p1 p2 p3 p4 p5 p6
  have shifted : p1.dot = p.dot ∧ p1.scanline = p.scanline ∧ p1.v = p.v ∧ p1.t = p.t := by
    unfold p1
    split <;> exact ⟨rfl, rfl, rfl, rfl⟩
  have reloaded : p2.dot = p.dot ∧ p2.scanline = p.scanline ∧ p2.v = p.v ∧ p2.t = p.t := by
    unfold p2
    split <;> exact shifted
  have fetched : p3.dot = p.dot ∧ p3.scanline = p.scanline ∧ p3.v = p.v ∧ p3.t = p.t := by
    unfold p3
    split
    · obtain ⟨dot, scanline, v, t⟩ := p2.fetch_scroll m (p2.dot % 8)
      rw [dot, scanline, v, t]
      exact reloaded
    · exact reloaded
  clear_value p3
  obtain ⟨dot, scanline, v, t⟩ := fetched
  rw [Ppu.ite_v]
  simp only [p6, p5, p4, Ppu.ite_v, dot, scanline, v, t]
  exact scrollAfter_eq p.dot p.scanline p.v p.t

/-- v after a dot, rendering or not. -/
theorem Ppu.step_v (m : Mapper) (p : Ppu) :
    (p.step m).v =
      if p.Pipelining then scrollAfter p.dot p.scanline p.v p.t else p.v := by
  obtain ⟨b, h, o, n, z, status⟩ := p.status_onlyFlags
  rw [(p.step_sameBackground m).v, Ppu.afterBackground]
  split
  · rw [Ppu.background_v, status]
  · rw [status]

/-- Settles O53, from the schedule. -/
theorem scrollRegisterSchedule : Obligations.ScrollRegisterSchedule := by
  intro m p d line
  refine ⟨p.step_t m, p.step_fineX m, ?_⟩
  have idle : p.mask &&& 0x18#8 = 0#8 ∨ ¬ line ↔ ¬ p.Pipelining := by
    rw [← Ppu.rendering_eq_false_iff, not_and_or, Bool.not_eq_true]
  rw [p.step_v m, if_congr idle rfl rfl, ite_not]
  rfl

end Sys2Proof.Machine
end

section
/-!
PROOFS. The frame of the PPU: the status dots, the position of every dot, and what a dot does with rendering off
(65_ppu.md R560 to R563, R566, R567, R593).
-/

namespace Sys2Proof.Machine

/-! ### Dots without rendering work -/

/-- With rendering off, or on a line that is no rendering line, a dot is its status work and the advance (R562). -/
theorem Ppu.step_of_idle {p : Ppu} (h : ¬ p.Pipelining) (m : Mapper) : p.step m = p.status.advance := by
  have unseen : ¬ p.Showing := fun ⟨on, visible⟩ => h ⟨on, .inl visible⟩
  rw [Ppu.step_eq, if_neg fun draws => unseen draws.1, Ppu.afterSprites, if_neg unseen,
    Ppu.afterBackground, if_neg h]

/-- The advance changes the position alone. -/
theorem Ppu.advance_back (p : Ppu) (l d : Nat) :
    { p.advance with scanline := l, dot := d } = { p with scanline := l, dot := d } := by
  unfold Ppu.advance
  split <;> rfl

/-- Settles O50: with rendering off a dot is the status work and the advance. -/
theorem renderingOffHoldsThePipeline : Obligations.RenderingOffHoldsThePipeline := by
  intro m p masked
  have off : ¬ p.Pipelining := fun on =>
    Bool.false_ne_true ((p.rendering_eq_false_iff.mpr masked).symm.trans on.1)
  rw [Ppu.step_of_idle off, Ppu.advance_back]
  by_cases vblank : p.scanline = 241 ∧ p.dot = 1
  · rw [if_pos vblank, Ppu.status_of_vblank vblank]
  · by_cases clears : p.ClearsStatus
    · rw [if_neg vblank, if_pos clears, Ppu.status_of_clears clears]
    · rw [if_neg vblank, if_neg clears, Ppu.status_eq (by unfold Ppu.ClearsStatus at clears; omega)]

/-! ### The status flags after a dot -/

theorem Ppu.step_vblank (m : Mapper) (p : Ppu) : (p.step m).vblank = p.status.vblank := by
  obtain ⟨l, d, h, fb, step⟩ := p.step_onlyOutput m
  rw [step]
  exact ((p.afterSprites_only m).vblank).trans (p.afterBackground_only m).vblank

/-- The sprite-0 hit after a dot (R567, R587). -/
theorem Ppu.step_spr0hit (m : Mapper) (p : Ppu) :
    (p.step m).spr0hit =
      (p.status.spr0hit || decide p.Draws &&
        ((p.afterSprites m).spriteZeroOpaque (p.dot - 1) &&
          decide (((p.afterSprites m).backgroundPixel (p.dot - 1)).1 ≠ 0) && decide (p.dot - 1 ≠ 255))) := by
  have kept : (p.afterSprites m).spr0hit = p.status.spr0hit :=
    ((p.afterSprites_only m).spr0hit).trans (p.afterBackground_only m).spr0hit
  have advanced (q : Ppu) : q.advance.spr0hit = q.spr0hit := by
    obtain ⟨l, d, advance⟩ := q.advance_eq
    rw [advance]
  rw [Ppu.step_eq, advanced, ← kept]
  by_cases draws : p.Draws
  · rw [if_pos draws, decide_eq_true draws, Bool.true_and]
    rfl
  · rw [if_neg draws, decide_eq_false draws, Bool.false_and, Bool.or_false]

/-- With rendering off, or on a line that is not visible, only the status work touches the sprite pipeline. -/
theorem Ppu.step_sprites_of_not_showing {p : Ppu} (h : ¬ p.Showing) (m : Mapper) :
    Ppu.SameSprites p.status (p.step m) := by
  have same := p.step_sameSprites m
  rw [Ppu.afterSprites, if_neg h] at same
  have only := p.afterBackground_only m
  exact ⟨same.sprOverflow.trans only.sprOverflow, same.sec.trans only.sec, same.secCount.trans only.secCount,
    same.secHasZero.trans only.secHasZero, same.spCount.trans only.spCount, same.slots.trans only.slots,
    same.spZero.trans only.spZero⟩

theorem Ppu.ClearsStatus.not_showing {p : Ppu} (h : p.ClearsStatus) : ¬ p.Showing := by
  unfold Ppu.Showing
  omega

/-- What the dot (261, 1) leaves of the sprites of the last line (R567). -/
theorem Ppu.step_sprites_of_clears {p : Ppu} (h : p.ClearsStatus) (m : Mapper) :
    (p.step m).sprOverflow = false ∧ (p.step m).spCount = 0 ∧ (p.step m).spZero = false := by
  have same := Ppu.step_sprites_of_not_showing h.not_showing m
  rw [Ppu.status_of_clears h] at same
  exact ⟨same.sprOverflow, same.spCount, same.spZero⟩

/-- The evaluation only sets the overflow (R583). -/
theorem Ppu.evaluateFrom_overflow {p : Ppu} (h : p.sprOverflow = true) (ns : List Nat) :
    (p.evaluateFrom ns).sprOverflow = true := by
  induction ns generalizing p with
  | nil => exact h
  | cons n ns ih =>
    unfold Ppu.evaluateFrom
    split
    · split
      · exact ih (p := p.copySprite n) h
      · rfl
    · exact ih h

theorem Ppu.sprites_overflow {p : Ppu} (h : p.sprOverflow = true) (m : Mapper) :
    (p.sprites m).sprOverflow = true := by
  unfold Ppu.sprites
  split
  · exact h
  · split
    · exact Ppu.evaluateFrom_overflow h _
    · split <;> exact h

/-- A dot whose status work leaves the overflow set leaves it set. -/
theorem Ppu.step_overflow {p : Ppu} (h : p.status.sprOverflow = true) (m : Mapper) :
    (p.step m).sprOverflow = true := by
  have kept : (p.afterBackground m).sprOverflow = true := ((p.afterBackground_only m).sprOverflow).trans h
  rw [(p.step_sameSprites m).sprOverflow, Ppu.afterSprites]
  split
  · exact Ppu.sprites_overflow kept m
  · exact kept

/-! ### The two status dots -/

theorem bit_seven_eq (d : Byte) : bit d 7 = decide (128 ≤ d.toNat) := by
  have := d.isLt
  rw [bit_eq_decide, decide_eq_decide]
  omega

/-- The dot (241, 1) (R566). -/
theorem Ppu.step_at_vblank {p : Ppu} (h : p.scanline = 241 ∧ p.dot = 1) (m : Mapper) :
    p.step m = { p with vblank := true, dot := 2 } := by
  obtain ⟨line, dot⟩ := h
  have idle : ¬ p.Pipelining := by
    unfold Ppu.Pipelining
    omega
  rw [Ppu.step_of_idle idle, Ppu.status_of_vblank ⟨line, dot⟩, Ppu.advance, if_neg (by simp [dot])]
  simp [dot]

theorem State.dotStep_at_vblank {s : State} (h : s.ppu.scanline = 241 ∧ s.ppu.dot = 1) :
    s.dotStep = { s with
      ppu := { s.ppu with vblank := true, dot := 2 }
      nmiPending := s.nmiPending || decide (128 ≤ s.ppu.ctrl.toNat) } := by
  have raises : s.ppu.raisesNmi = decide (128 ≤ s.ppu.ctrl.toNat) := by
    rw [Ppu.raisesNmi, Ppu.atVblankStart, decide_eq_true h, Bool.true_and, bit_seven_eq]
  have unfinished : s.ppu.completesFrame = false := decide_eq_false (by omega)
  rw [State.dotStep, Ppu.step_at_vblank h, raises, unfinished]
  rfl

theorem State.dotStep_nmiPending {s : State} (h : ¬ (s.ppu.scanline = 241 ∧ s.ppu.dot = 1)) :
    s.dotStep.nmiPending = s.nmiPending := by
  show (s.nmiPending || s.ppu.raisesNmi) = s.nmiPending
  rw [Ppu.raisesNmi, Ppu.atVblankStart, decide_eq_false h, Bool.false_and, Bool.or_false]

/-- Settles O48, by the status work of the position. -/
theorem vblankAndNmiAtTheirDots : Obligations.VblankAndNmiAtTheirDots := by
  intro s
  refine ⟨fun line dot => State.dotStep_at_vblank ⟨line, dot⟩, fun line dot => ?clears, fun other => ?other⟩
  case clears =>
    have at' : s.ppu.ClearsStatus := ⟨line, dot⟩
    have hit := s.ppu.step_spr0hit s.mapper
    have vblank := s.ppu.step_vblank s.mapper
    rw [Ppu.status_of_clears at'] at hit vblank
    rw [decide_eq_false (fun draws => at'.not_showing draws.1), Bool.false_and, Bool.or_false] at hit
    obtain ⟨overflow, count, zero⟩ := Ppu.step_sprites_of_clears at' s.mapper
    exact ⟨vblank, hit, overflow, count, zero, State.dotStep_nmiPending (by omega)⟩
  case other =>
    have status := Ppu.status_eq (p := s.ppu) (by omega)
    have vblank := s.ppu.step_vblank s.mapper
    have hit := s.ppu.step_spr0hit s.mapper
    rw [status] at vblank hit
    refine ⟨vblank, State.dotStep_nmiPending (by omega), fun set => ?_, fun set => ?_⟩
    · exact hit.trans (by rw [set, Bool.true_or])
    · exact Ppu.step_overflow (by rw [status, set]) s.mapper

/-! ### A frame of dots (R563) -/

/-- The PPU stands at one of the frame's positions, `n` dots after (0, 0). -/
structure Ppu.AtDot (p : Ppu) (n : Nat) : Prop where
  scanline : p.scanline ≤ 261
  dot : p.dot ≤ 340
  position : 341 * p.scanline + p.dot = n

/-- The position of a dot of the frame is unique. -/
theorem Ppu.AtDot.unique {p q : Ppu} {n : Nat} (h : p.AtDot n) (h' : q.AtDot n) :
    q.scanline = p.scanline ∧ q.dot = p.dot := by
  have := h.dot
  have := h'.dot
  have := h.position
  have := h'.position
  omega

/-- A dot before the frame's last goes one position on. -/
theorem Ppu.AtDot.step {p : Ppu} {n : Nat} (h : p.AtDot n) (before : n < 89341) (m : Mapper) :
    (p.step m).AtDot (n + 1) := by
  obtain ⟨dot, scanline⟩ := p.step_position m
  generalize p.step m = q at dot scanline ⊢
  obtain ⟨hl, hd, position⟩ := h
  by_cases last : p.dot = 340
  · rw [if_pos last] at dot
    rw [if_pos last, if_neg (by omega)] at scanline
    exact ⟨by omega, by omega, by omega⟩
  · rw [if_neg last] at dot scanline
    exact ⟨by omega, by omega, by omega⟩

/-- The frame's last dot goes back to (0, 0). -/
theorem Ppu.AtDot.step_last {p : Ppu} (h : p.AtDot 89341) (m : Mapper) : (p.step m).AtDot 0 := by
  obtain ⟨dot, scanline⟩ := p.step_position m
  generalize p.step m = q at dot scanline ⊢
  obtain ⟨hl, hd, position⟩ := h
  rw [if_pos (by omega)] at dot scanline
  rw [if_pos (by omega)] at scanline
  exact ⟨by omega, by omega, by omega⟩

/-- The frame's last dot is its last position (R560). -/
theorem Ppu.AtDot.completesFrame {p : Ppu} {n : Nat} (h : p.AtDot n) : p.completesFrame = decide (n = 89341) := by
  obtain ⟨hl, hd, position⟩ := h
  rw [Ppu.completesFrame, decide_eq_decide]
  omega

/-- As many dots as do not reach the frame's end go as many positions on and emit nothing. -/
theorem dotSteps_before_end {s : State} {n : Nat} (h : s.ppu.AtDot n) (k : Nat) (before : n + k < 89342) :
    (State.dotStep^[k] s).ppu.AtDot (n + k) ∧ (State.dotStep^[k] s).events = s.events := by
  induction k with
  | zero => exact ⟨h, rfl⟩
  | succ k ih =>
    obtain ⟨reached, events⟩ := ih (by omega)
    rw [Function.iterate_succ_apply']
    refine ⟨reached.step (by omega) _, (if_neg ?_).trans events⟩
    simp only [reached.completesFrame, decide_eq_true_eq]
    omega

/-- The frame's last dot emits its event. -/
theorem dotStep_of_last {s : State} (h : s.ppu.AtDot 89341) :
    s.dotStep.ppu.AtDot 0 ∧ ∃ fb, s.dotStep.events = .frameComplete fb :: s.events :=
  ⟨h.step_last _, _, if_pos (h.completesFrame.trans (decide_eq_true rfl))⟩

/-- Settles O49: the dots up to the frame's last, that one, and the dots back to where it began. -/
theorem frameOfDotsReturnsOnce : Obligations.FrameOfDotsReturnsOnce := by
  intro s scanline dot
  obtain ⟨n, position⟩ : ∃ n, 341 * s.ppu.scanline + s.ppu.dot = n := ⟨_, rfl⟩
  have start : s.ppu.AtDot n := ⟨scanline, dot, position⟩
  obtain ⟨last, before⟩ := dotSteps_before_end start (89341 - n) (by omega)
  rw [show n + (89341 - n) = 89341 by omega] at last
  obtain ⟨origin, fb, event⟩ := dotStep_of_last last
  obtain ⟨back, after⟩ := dotSteps_before_end origin n (by omega)
  rw [Nat.zero_add] at back
  have split : 89342 = n + (1 + (89341 - n)) := by omega
  rw [split, Function.iterate_add_apply, Function.iterate_add_apply, Function.iterate_one]
  obtain ⟨sameLine, sameDot⟩ := start.unique back
  exact ⟨sameLine, sameDot, fb, by rw [after, event, before]⟩

end Sys2Proof.Machine
end

section
/-!
PROOFS. The background pipeline: what a dot fetches, from which address, and when the shifters shift and reload
(65_ppu.md R564, R565, R570, R571).
-/

namespace Sys2Proof.Machine

/-! ### Bits and fields in whole numbers -/

theorem getLsbD_eq_decide {w : Nat} (x : BitVec w) (k : Nat) : x.getLsbD k = decide (x.toNat / 2 ^ k % 2 = 1) := by
  rw [← BitVec.testBit_toNat, Nat.testBit_eq_decide_div_mod_eq]

/-- A bit that adds `a` to a sum adds `a` times the bit. -/
theorem ite_getLsbD {w : Nat} (x : BitVec w) (k a : Nat) :
    (if x.getLsbD k then a else 0) = x.toNat / 2 ^ k % 2 * a := by
  rw [getLsbD_eq_decide]
  obtain h | h := Nat.mod_two_eq_zero_or_one (x.toNat / 2 ^ k) <;> simp [h]

theorem ite_bit (d : Byte) (k a : Nat) : (if bit d k then a else 0) = d.toNat / 2 ^ k % 2 * a := ite_getLsbD d k a

theorem ofNat_toNat_eq {w : Nat} {x : BitVec w} {n : Nat} (h : x.toNat = n) : x = BitVec.ofNat w n := by
  rw [← h, BitVec.ofNat_toNat, BitVec.setWidth_eq]

/-- The nametable fetch address (R564). -/
theorem ntAddress_eq (v : Scroll) : ntAddress v = BitVec.ofNat 14 (0x2000 + v.toNat % 4096) := by
  unfold ntAddress
  have low : (0x2000#14 ||| (v.setWidth 14 &&& 0x0FFF#14)).toNat / 2 ^ 0 % 2 ^ 12 = v.toNat / 2 ^ 0 % 2 ^ 12 :=
    field_eq 0 0 12
  have region : (0x2000#14 ||| (v.setWidth 14 &&& 0x0FFF#14)).toNat / 2 ^ 12 % 2 ^ 2 = (2#2).toNat / 2 ^ 0 % 2 ^ 2 :=
    field_eq 12 0 2
  simp only [BitVec.toNat_ofNat] at region
  have := (0x2000#14 ||| (v.setWidth 14 &&& 0x0FFF#14)).isLt
  refine ofNat_toNat_eq ?_
  omega

/-- An address as the sum of the fields that `atAddress` puts together. -/
theorem toNat_eq_fields (a : VAddr) :
    a.toNat = a.toNat / 2 ^ 12 % 2 ^ 2 * 4096 + a.toNat / 2 ^ 10 % 2 ^ 2 * 1024 + a.toNat / 2 ^ 6 % 2 ^ 4 * 64 +
      a.toNat / 2 ^ 3 % 2 ^ 3 * 8 + a.toNat / 2 ^ 0 % 2 ^ 3 := by
  have := a.isLt
  omega

/-- The fetch address of a tile's attributes (R564). -/
theorem atAddress_eq (v : Scroll) :
    atAddress v =
      BitVec.ofNat 14 (0x23C0 + v.toNat / 1024 % 4 * 1024 + v.toNat / 32 % 32 / 4 * 8 + v.toNat % 32 / 4) := by
  have column : (atAddress v).toNat / 2 ^ 0 % 2 ^ 3 = v.toNat / 2 ^ 2 % 2 ^ 3 := by
    unfold atAddress; exact field_eq 0 2 3
  have row : (atAddress v).toNat / 2 ^ 3 % 2 ^ 3 = v.toNat / 2 ^ 7 % 2 ^ 3 := by
    unfold atAddress; exact field_eq 3 7 3
  have table : (atAddress v).toNat / 2 ^ 6 % 2 ^ 4 = 15 := by unfold atAddress; exact field_eq (y := 15#4) 6 0 4
  have nametable : (atAddress v).toNat / 2 ^ 10 % 2 ^ 2 = v.toNat / 1024 % 4 := by
    unfold atAddress; exact field_eq 10 10 2
  have region : (atAddress v).toNat / 2 ^ 12 % 2 ^ 2 = 2 := by unfold atAddress; exact field_eq (y := 2#2) 12 0 2
  have coarseY : v.toNat / 32 % 32 / 4 = v.toNat / 2 ^ 7 % 2 ^ 3 := by omega
  have coarseX : v.toNat % 32 / 4 = v.toNat / 2 ^ 2 % 2 ^ 3 := by omega
  refine ofNat_toNat_eq ?_
  rw [toNat_eq_fields (atAddress v), column, row, table, nametable, region, coarseX, coarseY]
  ring

/-- How far the quadrant is shifted down (R564). -/
theorem atShift_eq (v : Scroll) : atShift v = v.toNat / 64 % 2 * 4 + v.toNat / 2 % 2 * 2 := by
  rw [atShift, ite_getLsbD, ite_getLsbD]
  rfl

/-- The two bits of a quadrant (R564). -/
theorem quadrant_eq (d : Byte) (k : Nat) : (d >>> k).setWidth 2 = BitVec.ofNat 2 (d.toNat / 2 ^ k) := by
  rw [← Nat.shiftRight_eq_div_pow, ← BitVec.toNat_ushiftRight, BitVec.ofNat_toNat]

/-- The pattern fetch addresses (R564). -/
theorem Ppu.patternAddress_eq (p : Ppu) (plane : Nat) :
    p.patternAddress plane =
      BitVec.ofNat 14 (p.ctrl.toNat / 16 % 2 * 0x1000 + p.ntLatch.toNat * 16 + p.v.toNat / 4096 + 8 * plane) := by
  rw [Ppu.patternAddress, ite_bit]
  rfl

/-! ### The fetches -/

/-- A fetch falls at this position and its residue is `r` (R561, R562, R565). -/
def Ppu.Fetches (p : Ppu) (r : Nat) : Prop :=
  p.Pipelining ∧ (1 ≤ p.dot ∧ p.dot ≤ 256 ∨ 321 ≤ p.dot ∧ p.dot ≤ 336) ∧ p.dot % 8 = r

/-- The PPU after the fetch of its position. -/
def Ppu.afterFetch (m : Mapper) (p : Ppu) : Ppu :=
  if p.Pipelining ∧ fetchDot p.dot = true then p.fetch m (p.dot % 8) else p

/-- The nametable byte (R564). -/
theorem Ppu.fetch_tile (m : Mapper) (p : Ppu) :
    p.fetch m 1 = { p with ntLatch := ppuRead m p (BitVec.ofNat 14 (0x2000 + p.v.toNat % 4096)) } := by
  rw [← ntAddress_eq]
  rfl

/-- The quadrant of the tile's attributes (R564). -/
theorem Ppu.fetch_quadrant (m : Mapper) (p : Ppu) :
    p.fetch m 3 = { p with
      atLatch := BitVec.ofNat 2 ((ppuRead m p (BitVec.ofNat 14 (0x23C0 + p.v.toNat / 1024 % 4 * 1024 +
        p.v.toNat / 32 % 32 / 4 * 8 + p.v.toNat % 32 / 4))).toNat /
          2 ^ (p.v.toNat / 64 % 2 * 4 + p.v.toNat / 2 % 2 * 2)) } := by
  rw [← atAddress_eq, ← atShift_eq, ← quadrant_eq]
  rfl

/-- The pattern byte of plane 0 (R564). -/
theorem Ppu.fetch_low (m : Mapper) (p : Ppu) :
    p.fetch m 5 = { p with
      ptLoLatch := ppuRead m p (BitVec.ofNat 14
        (p.ctrl.toNat / 16 % 2 * 0x1000 + p.ntLatch.toNat * 16 + p.v.toNat / 4096)) } := by
  have address := p.patternAddress_eq 0
  rw [Nat.mul_zero, Nat.add_zero] at address
  rw [← address]
  rfl

/-- The pattern byte of plane 1 (R564). -/
theorem Ppu.fetch_high (m : Mapper) (p : Ppu) :
    p.fetch m 7 = { p with
      ptHiLatch := ppuRead m p (BitVec.ofNat 14
        (p.ctrl.toNat / 16 % 2 * 0x1000 + p.ntLatch.toNat * 16 + p.v.toNat / 4096 + 8)) } := by
  have address := p.patternAddress_eq 1
  rw [Nat.mul_one] at address
  rw [← address]
  rfl

/-- Each latch is written by the fetch of one residue. -/
theorem Ppu.fetch_others (m : Mapper) (p : Ppu) :
    (∀ r, r ≠ 1 → (p.fetch m r).ntLatch = p.ntLatch) ∧ (∀ r, r ≠ 3 → (p.fetch m r).atLatch = p.atLatch) ∧
      (∀ r, r ≠ 5 → (p.fetch m r).ptLoLatch = p.ptLoLatch) ∧ ∀ r, r ≠ 7 → (p.fetch m r).ptHiLatch = p.ptHiLatch := by
  simp only [← forall_and]
  intro r
  unfold Ppu.fetch
  split <;> simp

/-- A residue that is none of the four fetches nothing. -/
theorem Ppu.fetch_none {r : Nat} (h : r ∉ [1, 3, 5, 7]) (m : Mapper) (p : Ppu) : p.fetch m r = p := by
  unfold Ppu.fetch
  split
  · simp at h
  · simp at h
  · simp at h
  · simp at h
  · rfl

/-- A field that the fetches of residue `r` alone write is after the dot's fetch what that fetch puts there, or what it
was. -/
theorem Ppu.afterFetch_field {α : Type} (field : Ppu → α) {r : Nat} {m : Mapper} {p : Ppu}
    (others : ∀ j, j ≠ r → field (p.fetch m j) = field p) :
    (p.Fetches r → field (p.afterFetch m) = field (p.fetch m r)) ∧
      (¬ p.Fetches r → field (p.afterFetch m) = field p) := by
  have falls : p.Fetches r ↔ (p.Pipelining ∧ fetchDot p.dot = true) ∧ p.dot % 8 = r := by
    unfold Ppu.Fetches fetchDot
    rw [decide_eq_true_iff, and_assoc (a := p.Pipelining)]
  rw [falls]
  refine ⟨fun ⟨dot, residue⟩ => by rw [Ppu.afterFetch, if_pos dot, residue], fun none => ?_⟩
  unfold Ppu.afterFetch
  split
  · exact others _ fun residue => none ⟨by assumption, residue⟩
  · rfl

/-- The status work counts for no fetch. -/
theorem Ppu.status_fetch_latches (m : Mapper) (p : Ppu) (r : Nat) :
    (p.status.fetch m r).ntLatch = (p.fetch m r).ntLatch ∧ (p.status.fetch m r).atLatch = (p.fetch m r).atLatch ∧
      (p.status.fetch m r).ptLoLatch = (p.fetch m r).ptLoLatch ∧
      (p.status.fetch m r).ptHiLatch = (p.fetch m r).ptHiLatch := by
  obtain ⟨b, h, o, n, z, status⟩ := p.status_onlyFlags
  rw [status]
  unfold Ppu.fetch
  split <;> exact ⟨rfl, rfl, rfl, rfl⟩

/-- The latches after a dot are those after its fetch (R565). -/
theorem Ppu.step_latches (m : Mapper) (p : Ppu) :
    (p.step m).ntLatch = (p.afterFetch m).ntLatch ∧ (p.step m).atLatch = (p.afterFetch m).atLatch ∧
      (p.step m).ptLoLatch = (p.afterFetch m).ptLoLatch ∧ (p.step m).ptHiLatch = (p.afterFetch m).ptHiLatch := by
  have same := p.step_sameBackground m
  rw [same.ntLatch, same.atLatch, same.ptLoLatch, same.ptHiLatch, Ppu.afterBackground, Ppu.afterFetch]
  obtain ⟨b, h, o, n, z, status⟩ := p.status_onlyFlags
  by_cases on : p.Pipelining
  · obtain ⟨v, background⟩ := p.status.background_pipeline m
    rw [if_pos on, if_congr (and_iff_right on) rfl rfl, background, Ppu.status_dot]
    split
    · exact p.status_fetch_latches m _
    · rw [status]
      exact ⟨rfl, rfl, rfl, rfl⟩
  · rw [if_neg on, if_neg fun h => on h.1, status]
    exact ⟨rfl, rfl, rfl, rfl⟩

/-! ### The shifters -/

theorem toNat_withLowByte (r : BitVec 16) (b : Byte) : (withLowByte r b).toNat = r.toNat / 256 * 256 + b.toNat := by
  have low : (withLowByte r b).toNat / 2 ^ 0 % 2 ^ 8 = b.toNat / 2 ^ 0 % 2 ^ 8 := by
    unfold withLowByte; exact field_eq 0 0 8
  have high : (withLowByte r b).toNat / 2 ^ 8 % 2 ^ 8 = r.toNat / 2 ^ 8 % 2 ^ 8 := by
    unfold withLowByte; exact field_eq 8 8 8
  omega

theorem toNat_shiftLeft_one (r : BitVec 16) : (r <<< 1).toNat = 2 * r.toNat % 65536 := by
  rw [BitVec.toNat_shiftLeft, Nat.shiftLeft_eq, pow_one, Nat.mul_comm]

/-- A bit of the quadrant spread over a byte (R570). -/
theorem toNat_spread (b : BitVec 2) :
    (if b.getLsbD 0 then 0xFF#8 else 0x00#8 : Byte).toNat = 255 * (b.toNat % 2) ∧
      (if b.getLsbD 1 then 0xFF#8 else 0x00#8 : Byte).toNat = 255 * (b.toNat / 2) := by
  revert b
  decide

/-- The shifters after a dot (R570, R571). -/
theorem Ppu.step_shifters (m : Mapper) (p : Ppu) :
    let after := fun (r : BitVec 16) (latch : Byte) =>
      if p.Pipelining then shifterAfter p.dot r latch else r
    (p.step m).bgLo = after p.bgLo p.ptLoLatch ∧ (p.step m).bgHi = after p.bgHi p.ptHiLatch ∧
      (p.step m).atLo = after p.atLo (if p.atLatch.getLsbD 0 then 0xFF#8 else 0x00#8) ∧
      (p.step m).atHi = after p.atHi (if p.atLatch.getLsbD 1 then 0xFF#8 else 0x00#8) := by
  intro after
  have same := p.step_sameBackground m
  rw [same.bgLo, same.bgHi, same.atLo, same.atHi, Ppu.afterBackground]
  obtain ⟨b, h, o, n, z, status⟩ := p.status_onlyFlags
  by_cases on : p.Pipelining
  · obtain ⟨v, background⟩ := p.status.background_pipeline m
    rw [if_pos on, background]
    simp only [after, if_pos on, status, and_self]
  · simp only [after, if_neg on, status, and_self]

/-- A shifter of a dot in whole numbers, `on` saying that its line is a rendering line with rendering enabled. -/
theorem shifterAfter_toNat {on : Prop} [Decidable on] {d : Nat} {new old : BitVec 16} {latch : Byte}
    (h : new = if on then shifterAfter d old latch else old) :
    let shifts := on ∧ (2 ≤ d ∧ d ≤ 257 ∨ 322 ≤ d ∧ d ≤ 337)
    let reloads := on ∧ d % 8 = 1 ∧ (9 ≤ d ∧ d ≤ 257 ∨ d = 329 ∨ d = 337)
    ∃ n, (shifts → n = 2 * old.toNat % 65536) ∧ (¬ shifts → n = old.toNat) ∧
      (reloads → new.toNat = n / 256 * 256 + latch.toNat) ∧ (¬ reloads → new.toNat = n) := by
  intro shifts reloads
  by_cases enabled : on
  · have shift : shiftDot d = true ↔ shifts := by
      simp only [shifts, enabled, true_and, shiftDot, decide_eq_true_iff]
    have reload : reloadDot d = true ↔ reloads := by
      simp only [reloads, enabled, true_and, reloadDot, decide_eq_true_iff]
      omega
    rw [if_pos enabled, shifterAfter] at h
    simp only [shift, reload] at h
    refine ⟨(if shifts then old <<< 1 else old).toNat, fun yes => ?_, fun no => ?_, fun yes => ?_, fun no => ?_⟩
    · rw [if_pos yes, toNat_shiftLeft_one]
    · rw [if_neg no]
    · rw [h, if_pos yes, toNat_withLowByte]
    · rw [h, if_neg no]
  · rw [if_neg enabled] at h
    exact ⟨old.toNat, fun yes => absurd yes.1 enabled, fun _ => rfl, fun yes => absurd yes.1 enabled,
      fun _ => by rw [h]⟩

/-- Settles O54: the latches from the fetch of the position, the shifters from its shift and its reload. -/
theorem backgroundPipelineAtItsDots : Obligations.BackgroundPipelineAtItsDots := by
  intro m p v d q on fetches shifts reloads table group tile quadrant low high Shifter
  refine ⟨?latches, ?shifters, p.fetch_tile m, p.fetch_quadrant m, p.fetch_low m, p.fetch_high m,
    fun r h => Ppu.fetch_none h m p⟩
  case latches =>
    obtain ⟨notTile, notQuadrant, notLow, notHigh⟩ := p.fetch_others m
    have ntLatch := Ppu.afterFetch_field Ppu.ntLatch notTile
    have atLatch := Ppu.afterFetch_field Ppu.atLatch notQuadrant
    have ptLoLatch := Ppu.afterFetch_field Ppu.ptLoLatch notLow
    have ptHiLatch := Ppu.afterFetch_field Ppu.ptHiLatch notHigh
    obtain ⟨nt, at', lo, hi⟩ := p.step_latches m
    rw [← nt, Ppu.fetch_tile] at ntLatch
    rw [← at', Ppu.fetch_quadrant] at atLatch
    rw [← lo, Ppu.fetch_low] at ptLoLatch
    rw [← hi, Ppu.fetch_high] at ptHiLatch
    exact ⟨ntLatch.1, ntLatch.2, atLatch.1, atLatch.2, ptLoLatch.1, ptLoLatch.2, ptHiLatch.1, ptHiLatch.2⟩
  case shifters =>
    obtain ⟨bgLo, bgHi, atLo, atHi⟩ := p.step_shifters m
    obtain ⟨spreadLow, spreadHigh⟩ := toNat_spread p.atLatch
    have attributeLow := shifterAfter_toNat atLo
    have attributeHigh := shifterAfter_toNat atHi
    rw [spreadLow] at attributeLow
    rw [spreadHigh] at attributeHigh
    exact ⟨shifterAfter_toNat bgLo, shifterAfter_toNat bgHi, attributeLow, attributeHigh⟩

end Sys2Proof.Machine
end

section
/-!
PROOFS. The sprite stages: the clear, the evaluation and the slot fetch of a visible line, and what the other dots keep
of them (65_ppu.md R567, R580 to R584).
-/

namespace Sys2Proof.Machine

open Sys2Proof.Claims

/-! ### What the sprite work keeps -/

/-- The evaluation leaves the slots and their marks. -/
theorem Ppu.evaluateFrom_slots (p : Ppu) (ns : List Nat) :
    (p.evaluateFrom ns).slots = p.slots ∧ (p.evaluateFrom ns).spCount = p.spCount ∧
      (p.evaluateFrom ns).spZero = p.spZero := by
  induction ns generalizing p with
  | nil => exact ⟨rfl, rfl, rfl⟩
  | cons n ns ih =>
    unfold Ppu.evaluateFrom
    split
    · split
      · exact ih (p.copySprite n)
      · exact ⟨rfl, rfl, rfl⟩
    · exact ih p

/-- Secondary OAM changes at dots 64 and 256 only (R581, R582). -/
theorem Ppu.sprites_secondary {p : Ppu} (clear : p.dot ≠ 64) (evaluate : p.dot ≠ 256) (m : Mapper) :
    (p.sprites m).sec = p.sec ∧ (p.sprites m).secCount = p.secCount ∧ (p.sprites m).secHasZero = p.secHasZero := by
  unfold Ppu.sprites
  rw [if_neg clear, if_neg evaluate]
  split <;> exact ⟨rfl, rfl, rfl⟩

/-- The slots change at dot 320 only (R584). -/
theorem Ppu.sprites_slots {p : Ppu} (fetch : p.dot ≠ 320) (m : Mapper) :
    (p.sprites m).slots = p.slots ∧ (p.sprites m).spCount = p.spCount ∧ (p.sprites m).spZero = p.spZero := by
  unfold Ppu.sprites
  rw [if_neg fetch]
  split
  · exact ⟨rfl, rfl, rfl⟩
  · split
    · exact p.evaluateFrom_slots _
    · exact ⟨rfl, rfl, rfl⟩

/-- The overflow changes at dot 256 only (R583). -/
theorem Ppu.sprites_overflow_kept {p : Ppu} (evaluate : p.dot ≠ 256) (m : Mapper) :
    (p.sprites m).sprOverflow = p.sprOverflow := by
  unfold Ppu.sprites
  rw [if_neg evaluate]
  split
  · rfl
  · split <;> rfl

/-! ### The sprite work of a dot, from the state before it -/

/-- The background work before it in the dot counts for nothing of the sprite work. -/
theorem Ppu.OnlyBackground.eq_with {p q : Ppu} (h : Ppu.OnlyBackground p q) :
    q = { p with
      v := q.v, ntLatch := q.ntLatch, atLatch := q.atLatch, ptLoLatch := q.ptLoLatch, ptHiLatch := q.ptHiLatch
      bgLo := q.bgLo, bgHi := q.bgHi, atLo := q.atLo, atHi := q.atHi } := by
  obtain ⟨⟩ := p
  obtain ⟨⟩ := q
  obtain ⟨⟩ := h
  simp only at *
  subst_vars
  rfl

/-- What the sprite work depends on is the same after the background work. -/
theorem Ppu.OnlyBackground.sprite_inputs {p q : Ppu} (h : Ppu.OnlyBackground p q) (m : Mapper) :
    (∀ k, q.secAt k = p.secAt k) ∧ (∀ k, q.oamAt k = p.oamAt k) ∧ (∀ l, q.hits l = p.hits l) ∧
      ∀ i, q.loadSlot m i = p.loadSlot m i := by
  rw [h.eq_with]
  exact ⟨fun _ => rfl, fun _ => rfl, fun _ => rfl, fun _ => rfl⟩

theorem Ppu.step_sprites_of_showing {p : Ppu} (h : p.Showing) (m : Mapper) :
    Ppu.SameSprites ((p.afterBackground m).sprites m) (p.step m) := by
  have same := p.step_sameSprites m
  rwa [Ppu.afterSprites, if_pos h] at same

/-- Secondary OAM is kept at every dot but 64 and 256 of a visible line with rendering enabled. -/
theorem Ppu.step_secondary {p : Ppu} (clear : ¬ (p.Showing ∧ p.dot = 64)) (evaluate : ¬ (p.Showing ∧ p.dot = 256))
    (m : Mapper) :
    (p.step m).sec = p.sec ∧ (p.step m).secCount = p.secCount ∧ (p.step m).secHasZero = p.secHasZero := by
  by_cases on : p.Showing
  · have same := Ppu.step_sprites_of_showing on m
    have only := Ppu.afterBackground_only_of_visible on.2 m
    obtain ⟨sec, count, zero⟩ := Ppu.sprites_secondary (p := p.afterBackground m)
      (only.dot ▸ fun dot => clear ⟨on, dot⟩) (only.dot ▸ fun dot => evaluate ⟨on, dot⟩) m
    exact ⟨same.sec.trans (sec.trans only.sec), same.secCount.trans (count.trans only.secCount),
      same.secHasZero.trans (zero.trans only.secHasZero)⟩
  · have same := Ppu.step_sprites_of_not_showing on m
    obtain ⟨b, h, o, n, z, status⟩ := p.status_onlyFlags
    rw [status] at same
    exact ⟨same.sec, same.secCount, same.secHasZero⟩

/-- The slots are kept at every dot but 320 of a visible line with rendering enabled, and so are their marks but for the
status work. -/
theorem Ppu.step_slots {p : Ppu} (fetch : ¬ (p.Showing ∧ p.dot = 320)) (m : Mapper) :
    (p.step m).slots = p.slots ∧
      (¬ p.ClearsStatus → (p.step m).spCount = p.spCount ∧ (p.step m).spZero = p.spZero) := by
  by_cases on : p.Showing
  · have same := Ppu.step_sprites_of_showing on m
    have only := Ppu.afterBackground_only_of_visible on.2 m
    obtain ⟨slots, count, zero⟩ := Ppu.sprites_slots (p := p.afterBackground m)
      (only.dot ▸ fun dot => fetch ⟨on, dot⟩) m
    exact ⟨same.slots.trans (slots.trans only.slots), fun _ =>
      ⟨same.spCount.trans (count.trans only.spCount), same.spZero.trans (zero.trans only.spZero)⟩⟩
  · have same := Ppu.step_sprites_of_not_showing on m
    refine ⟨?_, fun keeps => ?_⟩
    · obtain ⟨b, h, o, n, z, status⟩ := p.status_onlyFlags
      rw [same.slots, status]
    · obtain ⟨b, status⟩ := Ppu.status_of_not_clears keeps
      rw [same.spCount, same.spZero, status]
      exact ⟨rfl, rfl⟩

/-- The overflow is kept but for the evaluation and the status work. -/
theorem Ppu.step_overflow_kept {p : Ppu} (evaluate : ¬ (p.Showing ∧ p.dot = 256)) (keeps : ¬ p.ClearsStatus)
    (m : Mapper) : (p.step m).sprOverflow = p.sprOverflow := by
  by_cases on : p.Showing
  · have same := Ppu.step_sprites_of_showing on m
    have only := Ppu.afterBackground_only_of_visible on.2 m
    have kept := Ppu.sprites_overflow_kept (p := p.afterBackground m) (only.dot ▸ fun dot => evaluate ⟨on, dot⟩) m
    exact same.sprOverflow.trans (kept.trans only.sprOverflow)
  · obtain ⟨b, status⟩ := Ppu.status_of_not_clears keeps
    rw [(Ppu.step_sprites_of_not_showing on m).sprOverflow, status]

/-! ### The clear (R581) -/

theorem Ppu.step_at_clear {p : Ppu} (on : p.Showing) (dot : p.dot = 64) (m : Mapper) :
    (∀ k, k < 32 → (p.step m).secAt k = 0xFF#8) ∧ (p.step m).secCount = 0 ∧ (p.step m).secHasZero = false := by
  have same := Ppu.step_sprites_of_showing on m
  have only := Ppu.afterBackground_only_of_visible on.2 m
  rw [Ppu.sprites, if_pos (only.dot.trans dot)] at same
  have filled : ∀ k, k < 32 → Memory.find ((List.range 32).map (fun k => (k, 0xFF#8))) k = some 0xFF#8 := by decide
  refine ⟨fun k below => ?_, same.secCount, same.secHasZero⟩
  rw [Ppu.secAt, same.sec, Ppu.clearSecondary, Memory.read, filled k below]
  rfl

/-! ### The evaluation (R582, R583) -/

theorem Ppu.spriteHeight_eq (p : Ppu) : p.spriteHeight = if p.ctrl.toNat / 32 % 2 = 1 then 16 else 8 := by
  simp only [Ppu.spriteHeight, bit_eq_decide, decide_eq_true_eq]
  rfl

theorem spriteInRange_iff (h s : Nat) (y : Byte) :
    spriteInRange h s y = true ↔ y.toNat ≤ s ∧ s < y.toNat + h := by
  rw [spriteInRange, decide_eq_true_eq]
  omega

/-- The sprites that the evaluation copies, in whole numbers. -/
theorem Ppu.hits_eq (p : Ppu) : p.hits (List.range 64) = inRange p := by
  refine List.filter_congr fun n _ => ?_
  rw [← Ppu.spriteHeight_eq, Bool.eq_iff_iff, spriteInRange_iff, decide_eq_true_eq]

/-- Sprite 0 comes first, so it is among the first `k` sprites of a selection when it is selected and `k` is not 0. -/
theorem contains_zero_take (f : Nat → Bool) (n k : Nat) :
    (((List.range (n + 1)).filter f).take k).contains 0 =
      (decide (0 < k) && ((List.range (n + 1)).filter f).contains 0) := by
  have later : 0 ∉ ((List.range n).map Nat.succ).filter f := by simp
  rw [List.range_succ_eq_map, List.filter_cons]
  by_cases first : f 0 = true
  · rw [if_pos first]
    cases k <;> simp
  · rw [if_neg first]
    have none : 0 ∉ (((List.range n).map Nat.succ).filter f).take k := fun h => later (List.mem_of_mem_take h)
    simp [later, none]

theorem Ppu.step_at_evaluation {p : Ppu} (on : p.Showing) (dot : p.dot = 256) (count : p.secCount ≤ 8) (m : Mapper) :
    (p.step m).secCount = min 8 (p.secCount + (inRange p).length) ∧
      (p.step m).sprOverflow = (p.sprOverflow || decide (8 < p.secCount + (inRange p).length)) ∧
      (p.step m).secHasZero = (p.secHasZero || (decide (p.secCount < 8) && (inRange p).contains 0)) ∧
      (∀ j k n, p.secCount + j < 8 → k < 4 → (inRange p)[j]? = some n →
        (p.step m).secAt (4 * (p.secCount + j) + k) = p.oamAt (4 * n + k)) ∧
      (∀ k, k < 4 * p.secCount → (p.step m).secAt k = p.secAt k) := by
  have same := Ppu.step_sprites_of_showing on m
  have only := Ppu.afterBackground_only_of_visible on.2 m
  obtain ⟨secAt, oamAt, hits, -⟩ := only.sprite_inputs m
  obtain ⟨length, overflow, zero, kept, copied⟩ :=
    (p.afterBackground m).evaluateFrom_eq (List.range 64) (only.secCount.trans_le count)
  have first : ((inRange p).take (8 - p.secCount)).contains 0 =
      (decide (p.secCount < 8) && (inRange p).contains 0) := by
    rw [inRange, contains_zero_take, decide_eq_decide.mpr Nat.sub_pos_iff_lt]
  rw [hits, Ppu.hits_eq, only.secCount] at length overflow zero copied
  rw [only.sprOverflow] at overflow
  rw [only.secHasZero, first] at zero
  rw [only.secCount] at kept
  rw [Ppu.sprites, if_neg (by rw [only.dot, dot]; decide), if_pos (only.dot.trans dot)] at same
  have stored (k : Nat) : (p.step m).secAt k = (p.afterBackground m).evaluateSprites.secAt k := by
    rw [Ppu.secAt, same.sec]
    rfl
  exact ⟨same.secCount.trans length, same.sprOverflow.trans overflow, same.secHasZero.trans zero,
    fun j k n below small hit => (stored _).trans ((copied j k n below small hit).trans (oamAt _)),
    fun k below => (stored _).trans ((kept k below).trans (secAt k))⟩

/-! ### The slot fetch (R584) -/

/-- A pattern byte reversed by bit 6 of the sprite's attributes (R584). -/
theorem getLsbD_flip (attr b : Byte) {j : Nat} (h : j < 8) :
    (if bit attr 6 then reverse8 b else b).getLsbD j =
      b.getLsbD (if attr.toNat / 64 % 2 = 1 then 7 - j else j) := by
  have flipped : bit attr 6 = true ↔ attr.toNat / 64 % 2 = 1 := by
    rw [bit_eq_decide, decide_eq_true_eq]
    rfl
  by_cases flip : attr.toNat / 64 % 2 = 1
  · rw [if_pos (flipped.mpr flip), if_pos flip, reverse8, BitVec.getLsbD_reverse, BitVec.getMsbD, decide_eq_true h,
      Bool.true_and]
  · rw [if_neg (mt flipped.mp flip), if_neg flip]

/-- The pattern address of a sprite's row in whole numbers. -/
theorem Ppu.spriteAddress_eq (p : Ppu) (tile : Byte) (r : Nat) :
    p.spriteAddress tile r =
      if p.ctrl.toNat / 32 % 2 = 1 then tile.toNat % 2 * 0x1000 + (tile.toNat / 2 * 2 + r / 8) * 16 + r % 8
      else p.ctrl.toNat / 8 % 2 * 0x1000 + tile.toNat * 16 + r := by
  have even : tile.toNat - tile.toNat % 2 = tile.toNat / 2 * 2 := by omega
  rw [Ppu.spriteAddress, even, ite_bit]
  simp only [bit_eq_decide, decide_eq_true_eq]
  rfl

theorem bit_seven_iff (d : Byte) : bit d 7 = true ↔ d.toNat / 128 = 1 := by
  have := d.isLt
  rw [bit_seven_eq, decide_eq_true_eq]
  omega

/-- The row of the tile that the current line shows, from the bottom when bit 7 of its attributes is set (R584). -/
def Ppu.spriteRow (p : Ppu) (y attr : Byte) : Nat :=
  if attr.toNat / 128 = 1 then p.spriteHeight - 1 - (p.scanline - y.toNat) else p.scanline - y.toNat

/-- A slot whose row is on the sprite (R584). -/
theorem Ppu.loadSlot_of_inRange {p : Ppu} {i : Nat}
    (h : spriteInRange p.spriteHeight p.scanline (p.secAt (4 * i)) = true) (m : Mapper) :
    let tile := p.secAt (4 * i + 1)
    let attr := p.secAt (4 * i + 2)
    let address := p.spriteAddress tile (p.spriteRow (p.secAt (4 * i)) attr)
    let flip := fun (b : Byte) => if bit attr 6 then reverse8 b else b
    p.loadSlot m i =
      { x := p.secAt (4 * i + 3), attr := attr, lo := flip (ppuRead m p (BitVec.ofNat 14 address))
        hi := flip (ppuRead m p (BitVec.ofNat 14 (address + 8))) } := by
  simp only [Ppu.loadSlot, Ppu.spriteRow, if_pos h, bit_seven_iff, Nat.mul_zero, Nat.add_zero, Nat.mul_one]

/-- What a slot is loaded with, in whole numbers. -/
theorem Ppu.slotLoaded_loadSlot (m : Mapper) (p : Ppu) (i : Nat) : SlotLoaded m p i (p.loadSlot m i) := by
  unfold SlotLoaded
  intro y tile attr h r a from'
  have height : p.spriteHeight = h := p.spriteHeight_eq
  have row : p.spriteRow (p.secAt (4 * i)) (p.secAt (4 * i + 2)) = r := by
    rw [Ppu.spriteRow, height]
  have tall : h = 16 ↔ p.ctrl.toNat / 32 % 2 = 1 := by
    unfold h
    split <;> simp [*]
  have address : p.spriteAddress (p.secAt (4 * i + 1)) r = a := by
    rw [Ppu.spriteAddress_eq, ← if_congr tall rfl rfl]
  refine ⟨rfl, rfl, fun above below => ?_⟩
  have loaded := Ppu.loadSlot_of_inRange (p := p) (i := i)
    ((spriteInRange_iff ..).mpr ⟨above, height ▸ below⟩) m
  simp only [row, address] at loaded
  rw [loaded]
  exact ⟨fun j below => getLsbD_flip _ _ below, fun j below => getLsbD_flip _ _ below⟩

theorem Ppu.step_at_fetch {p : Ppu} (on : p.Showing) (dot : p.dot = 320) (m : Mapper) :
    (p.step m).spCount = p.secCount ∧ (p.step m).spZero = p.secHasZero ∧
      (p.step m).slots.length = p.slots.length ∧
      (∀ i k, i < p.secCount → (p.step m).slots[i]? = some k → SlotLoaded m p i k) ∧
      (∀ i, p.secCount ≤ i → (p.step m).slots[i]? = p.slots[i]?) := by
  have same := Ppu.step_sprites_of_showing on m
  have only := Ppu.afterBackground_only_of_visible on.2 m
  obtain ⟨-, -, -, load⟩ := only.sprite_inputs m
  rw [Ppu.sprites, if_neg (by rw [only.dot, dot]; decide), if_neg (by rw [only.dot, dot]; decide),
    if_pos (only.dot.trans dot), Ppu.fetchSprites] at same
  have slot (i : Nat) : (p.step m).slots[i]? =
      p.slots[i]?.map fun k => if i < p.secCount then p.loadSlot m i else k := by
    rw [same.slots, Ppu.loadSlots_get, only.slots, only.secCount, Nat.zero_add, load]
  refine ⟨same.spCount.trans only.secCount, same.spZero.trans only.secHasZero, ?_, fun i k below found => ?_,
    fun i above => ?_⟩
  · rw [same.slots, Ppu.loadSlots_length, only.slots]
  · rw [slot, Option.map_eq_some_iff] at found
    obtain ⟨old, -, rfl⟩ := found
    rw [if_pos below]
    exact p.slotLoaded_loadSlot m i
  · rw [slot]
    simp [Nat.not_lt.mpr above]

/-- Settles O55, stage by stage. -/
theorem spriteStagesAtTheirDots : Obligations.SpriteStagesAtTheirDots := by
  intro m p count q stage clears hit
  have at' (d : Nat) : stage d ↔ p.Showing ∧ p.dot = d := (and_assoc (a := p.rendering = true)).symm
  refine ⟨fun h => ?clear, fun h => ?evaluate, fun h => ?fetch, fun h h' => ?secondary, fun h => ?slots,
    fun h keeps => ?overflow, fun h => Ppu.step_sprites_of_clears h m, p.step_oam m⟩
  case clear =>
    obtain ⟨on, dot⟩ := (at' 64).mp h
    exact Ppu.step_at_clear on dot m
  case evaluate =>
    obtain ⟨on, dot⟩ := (at' 256).mp h
    exact Ppu.step_at_evaluation on dot count m
  case fetch =>
    obtain ⟨on, dot⟩ := (at' 320).mp h
    exact Ppu.step_at_fetch on dot m
  case secondary => exact Ppu.step_secondary (mt (at' 64).mpr h) (mt (at' 256).mpr h') m
  case slots => exact Ppu.step_slots (mt (at' 320).mpr h) m
  case overflow => exact Ppu.step_overflow_kept (mt (at' 256).mpr h) keeps m

end Sys2Proof.Machine
end

section
/-!
PROOFS. Pixels: the background's and the sprites' pixel in whole numbers, the one pixel a dot writes, and the sprite-0
hit (65_ppu.md R572, R586, R587, R590 to R592).
-/

namespace Sys2Proof.Machine

open Sys2Proof.Claims

/-! ### A pixel in whole numbers -/

/-- A two-bit number from a bit of each of two words. -/
theorem twoBits_getLsbD {w : Nat} (hi lo : BitVec w) (k : Nat) :
    twoBits (hi.getLsbD k) (lo.getLsbD k) = 2 * (hi.toNat / 2 ^ k % 2) + lo.toNat / 2 ^ k % 2 := by
  rw [twoBits, ite_getLsbD, ite_getLsbD, Nat.mul_one, Nat.mul_comm]

theorem Ppu.backgroundPixel_eq (p : Ppu) (x : Nat) : p.backgroundPixel x = backgroundAt p x := by
  simp only [Ppu.backgroundPixel, backgroundAt, twoBits_getLsbD, bit_eq_decide, Bool.and_eq_true, Bool.or_eq_true,
    decide_eq_true_eq]
  rfl

theorem Ppu.spritesShown_eq (p : Ppu) (x : Nat) : p.spritesShown x = spritesAt p x := by
  rw [Bool.eq_iff_iff]
  simp only [Ppu.spritesShown, spritesAt, bit_eq_decide, Bool.and_eq_true, Bool.or_eq_true, decide_eq_true_eq]
  rfl

theorem SpriteSlot.pixel_eq (k : SpriteSlot) (x : Nat) : k.pixel x = slotAt k x := by
  have covers : (k.x.toNat ≤ x ∧ x - k.x.toNat ≤ 7) ↔ (k.x.toNat ≤ x ∧ x ≤ k.x.toNat + 7) := by omega
  exact if_congr covers (twoBits_getLsbD k.hi k.lo _) rfl

/-- The first opaque slot at column `x` (R586). -/
def firstOpaque (x : Nat) (l : List SpriteSlot) : Option SpriteSlot := l.find? fun k => slotAt k x ≠ 0

theorem spritePixelOf_eq (x : Nat) (l : List SpriteSlot) :
    spritePixelOf x l =
      (firstOpaque x l).elim (0, 0, false) fun k => (slotAt k x, k.attr.toNat % 4, bit k.attr 5) := by
  induction l with
  | nil => rfl
  | cons k l ih =>
    rw [spritePixelOf, SpriteSlot.pixel_eq, ih, firstOpaque, firstOpaque, List.find?_cons]
    by_cases opaque' : slotAt k x = 0 <;> simp [opaque']

theorem slotAt_of_firstOpaque {x : Nat} {l : List SpriteSlot} {k : SpriteSlot} (h : firstOpaque x l = some k) :
    slotAt k x ≠ 0 := by
  simpa using List.find?_some h

/-- The slot that shows at column `x`, if any (R586). -/
def Ppu.shownSlot (p : Ppu) (x : Nat) : Option SpriteSlot :=
  if spritesAt p x then firstOpaque x (p.slots.take p.spCount) else none

theorem Ppu.spritePixel_eq (p : Ppu) (x : Nat) :
    p.spritePixel x =
      (p.shownSlot x).elim (0, 0, false) fun k => (slotAt k x, k.attr.toNat % 4, bit k.attr 5) := by
  rw [Ppu.spritePixel, Ppu.spritesShown_eq, Ppu.shownSlot, spritePixelOf_eq]
  split <;> rfl

theorem indexAt_of_none {p : Ppu} {x : Nat} (h : p.shownSlot x = none) :
    indexAt p x = if (backgroundAt p x).1 = 0 then 0 else 4 * (backgroundAt p x).2 + (backgroundAt p x).1 := by
  unfold Ppu.shownSlot firstOpaque at h
  simp only [indexAt, h]

theorem indexAt_of_some {p : Ppu} {x : Nat} {k : SpriteSlot} (h : p.shownSlot x = some k) :
    indexAt p x =
      if (backgroundAt p x).1 = 0 ∨ k.attr.toNat / 32 % 2 = 0 then 0x10 + 4 * (k.attr.toNat % 4) + slotAt k x
      else 4 * (backgroundAt p x).2 + (backgroundAt p x).1 := by
  unfold Ppu.shownSlot firstOpaque at h
  simp only [indexAt, h]
  by_cases transparent : (backgroundAt p x).1 = 0 <;> simp [transparent]

theorem bit_five_iff (d : Byte) : bit d 5 = true ↔ ¬ d.toNat / 32 % 2 = 0 := by
  rw [bit_eq_decide, decide_eq_true_eq]
  omega

/-- The palette index of a pixel (R590). -/
theorem Ppu.pixelIndex_eq (p : Ppu) (x : Nat) : p.pixelIndex x = indexAt p x := by
  simp only [Ppu.pixelIndex, Ppu.backgroundPixel_eq, Ppu.spritePixel_eq]
  cases shown : p.shownSlot x with
  | none =>
    rw [indexAt_of_none shown]
    by_cases transparent : (backgroundAt p x).1 = 0 <;> simp [transparent]
  | some k =>
    have visible : slotAt k x ≠ 0 := by
      unfold Ppu.shownSlot at shown
      split at shown
      · exact slotAt_of_firstOpaque shown
      · simp at shown
    rw [indexAt_of_some shown]
    simp only [Option.elim_some, visible, and_false, if_false, bit_five_iff, ite_not]
    by_cases transparent : (backgroundAt p x).1 = 0
    · simp [transparent]
    · simp [transparent]

/-- The greyscale mask (R591). -/
theorem Ppu.greyscale_eq (p : Ppu) (c : ColourIndex) :
    p.greyscale c = BitVec.ofNat 6 (if p.mask.toNat % 2 = 1 then c.toNat / 16 * 16 else c.toNat) := by
  have masked : ∀ c : ColourIndex, c &&& 0x30#6 = BitVec.ofNat 6 (c.toNat / 16 * 16) := by decide
  simp only [Ppu.greyscale, bit_eq_decide, pow_zero, Nat.div_one, decide_eq_true_eq]
  split
  · exact masked c
  · rw [BitVec.ofNat_toNat, BitVec.setWidth_eq]

/-- The colour that a dot writes for a palette index (R591). -/
theorem Ppu.colourOf_eq (p : Ppu) (n : Nat) :
    Config.masterPalette (p.greyscale (p.paletteAt (BitVec.ofNat 14 (0x3F00 + n)))) = colourOf p n := by
  rw [Ppu.greyscale_eq]
  rfl

/-! ### The pixel of a dot -/

theorem Ppu.afterSprites_fb (m : Mapper) (p : Ppu) : (p.afterSprites m).fb = p.fb := by
  obtain ⟨b, h, o, n, z, status⟩ := p.status_onlyFlags
  rw [(p.afterSprites_only m).fb, (p.afterBackground_only m).fb, status]

theorem Ppu.step_of_draws {p : Ppu} (h : p.Draws) (m : Mapper) :
    ∃ l d, p.step m = { (p.afterSprites m).output (p.dot - 1) with scanline := l, dot := d } := by
  rw [Ppu.step_eq, if_pos h]
  exact Ppu.advance_eq _

theorem Ppu.step_fb_of_not_draws {p : Ppu} (h : ¬ p.Draws) (m : Mapper) : (p.step m).fb = p.fb := by
  obtain ⟨l, d, advance⟩ := (p.afterSprites m).advance_eq
  rw [Ppu.step_eq, if_neg h, advance]
  exact p.afterSprites_fb m

/-- A dot that draws writes the pixel of its position, in the colour of the state after it (R590, R591). -/
theorem Ppu.step_colour_of_draws {p : Ppu} (h : p.Draws) (m : Mapper) (y x : Nat) :
    (p.step m).fb.colour y x =
      if y = p.scanline ∧ x = p.dot - 1 then colourOf (p.step m) (indexAt (p.step m) (p.dot - 1))
      else p.fb.colour y x := by
  obtain ⟨l, d, step⟩ := Ppu.step_of_draws h m
  have index : indexAt (p.step m) (p.dot - 1) = indexAt (p.afterSprites m) (p.dot - 1) := by
    rw [step]
    rfl
  have colour (n : Nat) : colourOf (p.step m) n = colourOf (p.afterSprites m) n := by
    rw [step]
    rfl
  rw [index, colour, ← Ppu.pixelIndex_eq, ← Ppu.colourOf_eq, step, ← p.afterSprites_fb m,
    ← p.afterSprites_scanline m]
  exact FrameBuffer.colour_put ..

/-- Settles O51: the pixel of the dot's position in its colour, every other as it was. -/
theorem onePixelPerVisibleDot : Obligations.OnePixelPerVisibleDot := by
  intro m p q
  refine ⟨fun on line low high => ?_, fun y x other => ?_⟩
  · rw [Ppu.step_colour_of_draws ⟨⟨on, line⟩, low, high⟩, if_pos ⟨rfl, rfl⟩]
  · by_cases draws : p.Draws
    · obtain ⟨⟨on, line⟩, low, high⟩ := draws
      rw [Ppu.step_colour_of_draws ⟨⟨on, line⟩, low, high⟩, if_neg]
      rintro ⟨rfl, rfl⟩
      exact other ⟨on, rfl, line, by omega, by omega⟩
    · rw [Ppu.step_fb_of_not_draws draws]

/-! ### The sprite-0 hit -/

/-- Slot 0 is sprite 0 and shows an opaque pixel at column `x` (R587). -/
def Ppu.ShowsSpriteZero (p : Ppu) (x : Nat) : Prop :=
  p.spZero = true ∧ 1 ≤ p.spCount ∧ spritesAt p x = true ∧ ∃ k, p.slots.head? = some k ∧ slotAt k x ≠ 0

theorem Ppu.spriteZeroOpaque_iff (p : Ppu) (x : Nat) : p.spriteZeroOpaque x = true ↔ p.ShowsSpriteZero x := by
  unfold Ppu.spriteZeroOpaque Ppu.ShowsSpriteZero
  cases slots : p.slots with
  | nil => simp
  | cons k l =>
    cases count : p.spCount with
    | zero => simp
    | succ n => simp [Ppu.spritesShown_eq, SpriteSlot.pixel_eq, and_assoc]

/-- Sprites show only with rendering enabled (R562). -/
theorem rendering_of_spritesAt {p : Ppu} {x : Nat} (h : spritesAt p x = true) : p.rendering = true := by
  rw [← Ppu.spritesShown_eq, Ppu.spritesShown, Bool.and_eq_true] at h
  rw [Ppu.rendering, h.1, Bool.or_true]

theorem Ppu.status_spr0hit (p : Ppu) : p.status.spr0hit = true ↔ p.spr0hit = true ∧ ¬ p.ClearsStatus := by
  by_cases clears : p.ClearsStatus
  · simp [Ppu.status_of_clears clears, clears]
  · obtain ⟨b, status⟩ := Ppu.status_of_not_clears clears
    rw [status]
    exact (and_iff_left clears).symm

/-- What a drawing dot's pixel sees of sprite 0 is what stood there before the dot. -/
theorem Ppu.afterSprites_spriteZero {p : Ppu} (h : p.Draws) (m : Mapper) (x : Nat) :
    (p.afterSprites m).spriteZeroOpaque x = true ↔ p.ShowsSpriteZero x := by
  have only := Ppu.afterBackground_only_of_visible h.1.2 m
  have mask : (p.afterSprites m).mask = p.mask := (p.afterSprites_only m).mask.trans only.mask
  obtain ⟨slots, count, zero⟩ := Ppu.sprites_slots (p := p.afterBackground m) (by rw [only.dot]; omega) m
  have shown : spritesAt (p.afterSprites m) x = spritesAt p x := by
    unfold spritesAt
    rw [mask]
  rw [Ppu.spriteZeroOpaque_iff, Ppu.ShowsSpriteZero, shown, Ppu.afterSprites, if_pos h.1, zero, count, slots,
    only.spZero, only.spCount, only.slots]
  rfl

/-- Settles O56: the hit kept by the status work, or raised by the pixel's output. -/
theorem spriteZeroHitExactlyWhereItMay : Obligations.SpriteZeroHitExactlyWhereItMay := by
  intro m p x q
  have background : (p.afterSprites m).backgroundPixel x = backgroundAt q x := by
    obtain ⟨l, d, h, fb, step⟩ := p.step_onlyOutput m
    rw [Ppu.backgroundPixel_eq, show q = _ from step]
    rfl
  have hit := p.step_spr0hit m
  rw [show p.dot - 1 = x from rfl, background] at hit
  rw [show q.spr0hit = _ from hit]
  simp only [Bool.or_eq_true, Bool.and_eq_true, decide_eq_true_eq]
  rw [Ppu.status_spr0hit]
  refine or_congr_right ⟨fun ⟨draws, ⟨opaque', bg⟩, edge⟩ => ?raised, fun h => ?raises⟩
  case raised =>
    obtain ⟨zero, count, shown, slot⟩ := (Ppu.afterSprites_spriteZero draws m x).mp opaque'
    exact ⟨draws.1.2, draws.2.1, by omega, zero, count, shown, slot, bg⟩
  case raises =>
    obtain ⟨line, low, high, zero, count, shown, slot, bg⟩ := h
    have draws : p.Draws := ⟨⟨rendering_of_spritesAt shown, line⟩, low, by omega⟩
    exact ⟨draws, ⟨(Ppu.afterSprites_spriteZero draws m x).mpr ⟨zero, count, shown, slot⟩, bg⟩, by omega⟩

end Sys2Proof.Machine
end

section
/-!
PROOFS. The folding of PPU addresses: the nametable and palette indexes as the spec writes them, and what a byte written
through PPUDATA reads as at its aliases (65_ppu.md R551 to R553).
-/

namespace Sys2Proof.Machine

open Sys2Proof.Claims

/-! ### The indexes as the spec writes them -/

/-- NtIndex's formulas (R551). -/
theorem ntIndex_formulas (n : Nat) :
    ntIndex .vertical n = n &&& 0x07FF ∧ ntIndex .horizontal n = ((n >>> 1) &&& 0x0400) ||| (n &&& 0x03FF) ∧
      ntIndex .singleLower n = n &&& 0x03FF ∧ ntIndex .singleUpper n = 0x0400 ||| (n &&& 0x03FF) := by
  have low : n &&& 0x03FF = n % 2 ^ 10 := Nat.and_two_pow_sub_one_eq_mod n 10
  have joined (k : Nat) : 2 ^ 10 * k ||| n % 2 ^ 10 = 2 ^ 10 * k + n % 2 ^ 10 :=
    (Nat.two_pow_add_eq_or_of_lt (Nat.mod_lt _ (by decide)) k).symm
  have half : (n >>> 1) &&& 0x0400 = 2 ^ 10 * (n / 0x800 % 2) := by
    rw [show 0x0400 = 2 ^ 10 from rfl, Nat.and_two_pow, Nat.testBit_shiftRight, Nat.testBit_eq_decide_div_mod_eq,
      Nat.mul_comm]
    obtain h | h := Nat.mod_two_eq_zero_or_one (n / 0x800) <;> simp [h]
  refine ⟨(Nat.and_two_pow_sub_one_eq_mod n 11).symm, ?_, low.symm, ?_⟩
  · rw [low, half, joined, Nat.mul_comm]
    rfl
  · rw [low, show 0x0400 = 2 ^ 10 * 1 from rfl, joined]
    rfl

/-- PalIndex's formula (R552). -/
theorem palIndex_formula (a : VAddr) :
    palIndex a = if a.toNat &&& 0x1F &&& 0x13 = 0x10 then a.toNat &&& 0x1F &&& 0x0F else a.toNat &&& 0x1F := by
  have folded : ∀ p < 32, (if p = 0x10 ∨ p = 0x14 ∨ p = 0x18 ∨ p = 0x1C then p - 0x10 else p) =
      if p &&& 0x13 = 0x10 then p &&& 0x0F else p := by decide
  rw [show a.toNat &&& 0x1F = a.toNat % 0x20 from Nat.and_two_pow_sub_one_eq_mod a.toNat 5]
  exact folded _ (Nat.mod_lt _ (by decide))

/-! ### One byte at the addresses of one index -/

theorem videoCell_nametable {a : VAddr} (low : 0x2000 ≤ a.toNat) (high : a.toNat < 0x3F00) (m : Mapper) :
    videoCell m a = (1, ntIndex m.mirroring (a.toNat % 0x1000)) := by
  rw [videoCell, if_neg (by omega), if_pos high]

theorem ppuRead_nametable {a : VAddr} (low : 0x2000 ≤ a.toNat) (high : a.toNat < 0x3F00) (m : Mapper) (p : Ppu) :
    ppuRead m p a = p.nametableAt m a := by
  rw [ppuRead, if_neg (by omega), if_pos high]

theorem ppuRead_of_ntIndex {a b : VAddr} (m : Mapper) (p : Ppu) (alow : 0x2000 ≤ a.toNat) (ahigh : a.toNat < 0x3F00)
    (blow : 0x2000 ≤ b.toNat) (bhigh : b.toNat < 0x3F00)
    (same : ntIndex m.mirroring (a.toNat % 0x1000) = ntIndex m.mirroring (b.toNat % 0x1000)) :
    ppuRead m p a = ppuRead m p b := by
  rw [ppuRead_nametable alow ahigh, ppuRead_nametable blow bhigh, Ppu.nametableAt, Ppu.nametableAt, same]

theorem ppuRead_of_palIndex {a b : VAddr} (m : Mapper) (p : Ppu) (alow : 0x3F00 ≤ a.toNat) (blow : 0x3F00 ≤ b.toNat)
    (same : palIndex a = palIndex b) : ppuRead m p a = ppuRead m p b := by
  refine BitVec.eq_of_toNat_eq ?_
  rw [ppuRead_palette alow, ppuRead_palette blow, Ppu.paletteAt, Ppu.paletteAt, same]

/-! ### Aliases (R553) -/

/-- Flipping a nametable bit of an address leaves its region and its other bits. -/
theorem toNat_flip (a : VAddr) :
    ((a ^^^ 0x0800#14).toNat % 0x800 = a.toNat % 0x800 ∧ (a ^^^ 0x0800#14).toNat / 0x1000 = a.toNat / 0x1000) ∧
      (a ^^^ 0x0400#14).toNat % 0x400 = a.toNat % 0x400 ∧ (a ^^^ 0x0400#14).toNat / 0x800 = a.toNat / 0x800 := by
  have low : (a ^^^ 0x0800#14).toNat / 2 ^ 0 % 2 ^ 11 = a.toNat / 2 ^ 0 % 2 ^ 11 := field_eq 0 0 11
  have high : (a ^^^ 0x0800#14).toNat / 2 ^ 12 % 2 ^ 2 = a.toNat / 2 ^ 12 % 2 ^ 2 := field_eq 12 12 2
  have low' : (a ^^^ 0x0400#14).toNat / 2 ^ 0 % 2 ^ 10 = a.toNat / 2 ^ 0 % 2 ^ 10 := field_eq 0 0 10
  have high' : (a ^^^ 0x0400#14).toNat / 2 ^ 11 % 2 ^ 3 = a.toNat / 2 ^ 11 % 2 ^ 3 := field_eq 11 11 3
  omega

/-- What a byte written through PPUDATA at a nametable address reads as at another (R553). -/
theorem ppuRead_after_dataWrite {s : State} {a b : VAddr} (d : Byte) (at' : s.ppu.v.setWidth 14 = a)
    (alow : 0x2000 ≤ a.toNat) (ahigh : a.toNat < 0x3000) (blow : 0x2000 ≤ b.toNat) (bhigh : b.toNat < 0x3F00) :
    ppuRead (busWrite 0x2007#16 d s).mapper (busWrite 0x2007#16 d s).ppu b =
      if ntIndex s.mapper.mirroring (b.toNat % 0x1000) = ntIndex s.mapper.mirroring (a.toNat % 0x1000) then d
      else ppuRead s.mapper s.ppu b := by
  have window : AtPpu 7 0x2007#16 := by unfold AtPpu; decide
  have address : s.ppu.dataAddress = a := at'
  rw [busWrite_ppu window, ppuRegWrite_data]
  show ppuRead (s.mapper.ppuWrite s.ppu.dataAddress d) (s.ppu.writeData s.mapper d) b = _
  rw [ppuRead_writeData, ppuRead_ppuWrite, address, videoCell_nametable blow bhigh,
    videoCell_nametable alow (by omega), if_neg (show ¬ a.toNat < 0x2000 by omega),
    if_pos (show a.toNat < 0x3F00 by omega)]
  simp only [Prod.mk.injEq, true_and]

/-- Settles O47: the formulas, and the aliases by their index. -/
theorem ppuAddressFolding : Obligations.PpuAddressFolding := by
  have part (n : Nat) : n &&& 0x0FFF = n % 0x1000 := Nat.and_two_pow_sub_one_eq_mod n 12
  refine ⟨fun n _ => ntIndex_formulas n, fun m p a b alow ahigh blow bhigh same => ?nametable, palIndex_formula,
    fun m p a low => ⟨?entry, fun b => ppuRead_of_palIndex m p low⟩, fun s d a low high at' => ?written⟩
  case nametable =>
    rw [part, part] at same
    exact ppuRead_of_ntIndex m p alow ahigh blow bhigh same
  case entry =>
    rw [ppuRead_palette low]
    exact (p.paletteAt a).isLt
  case written =>
    intro t
    have read (b : VAddr) := ppuRead_after_dataWrite (b := b) d at' low high
    obtain ⟨⟨low8, high8⟩, low4, high4⟩ := toNat_flip a
    refine ⟨fun mode => ?_, fun mode => ?_, fun mode below => ?_, fun mode start => ?_, fun mode start => ?_⟩
    · rw [read _ (by omega) (by omega), if_pos]
      simp only [mode, ntIndex]
      omega
    · rw [read _ (by omega) (by omega), if_pos]
      simp only [mode, ntIndex]
      omega
    · have above : (a + 0x1000#14).toNat = a.toNat + 0x1000 := by
        rw [BitVec.toNat_add]
        simp only [BitVec.toNat_ofNat]
        omega
      rw [read _ (by omega) (by omega), if_pos (by rw [above, Nat.add_mod_right])]
    · rw [read _ (by decide) (by decide), if_neg]
      simp only [mode, start]
      decide
    · rw [read _ (by decide) (by decide), if_neg]
      simp only [mode, start]
      decide

end Sys2Proof.Machine
end

section
/-!
PROOFS. The cartridge as the CPU and the PPU see it: PRG-RAM, PRG ROM and CHR by their banks, and the MMC1's serial port
(66_mapper.md).
-/

namespace Sys2Proof.Machine

/-! ### The cartridge's addresses (R625, R626) -/

theorem targetOf_cartridgeRam {a : Addr} (low : 0x6000 ≤ a.toNat) (high : a.toNat < 0x8000) :
    targetOf a = .prgRam (a.toNat - 0x6000) := by
  simp only [targetOf]
  rw [if_neg (by omega), if_neg (by omega), if_neg (by omega), if_neg (by omega), if_neg (by omega), if_neg (by omega),
    if_pos high]

theorem busRead_cartridgeRam {a : Addr} (low : 0x6000 ≤ a.toNat) (high : a.toNat < 0x8000) (s : State) :
    busRead a s = (s.mapper.prgRamRead (a.toNat - 0x6000), s) := by
  simp only [busRead, targetOf_cartridgeRam low high]

theorem busWrite_cartridgeRam {a : Addr} (low : 0x6000 ≤ a.toNat) (high : a.toNat < 0x8000) (v : Byte) (s : State) :
    busWrite a v s = s.setMapper (s.mapper.prgRamWrite (a.toNat - 0x6000) v) := by
  simp only [busWrite, targetOf_cartridgeRam low high]

theorem busRead_prgRom {a : Addr} (rom : 0x8000 ≤ a.toNat) (s : State) : busRead a s = (s.mapper.prgRead a, s) := by
  simp only [busRead, targetOf_vector rom]

theorem busWrite_prgRom {a : Addr} (rom : 0x8000 ≤ a.toNat) (v : Byte) (s : State) :
    busWrite a v s = s.setMapper (s.mapper.prgWrite a v) := by
  simp only [busWrite, targetOf_vector rom]

/-- On the MMC1 a write of ROM space is a serial write (R626). -/
theorem busWrite_serial {s : State} (mmc1 : s.mapper.kind = .mmc1) {a : Addr} (rom : 0x8000 ≤ a.toNat) (v : Byte) :
    busWrite a v s = s.setMapper (s.mapper.serialWrite a v) := by
  simp only [busWrite_prgRom rom, Mapper.prgWrite, mmc1]

/-- A PRG-RAM byte after a PRG-RAM write (R626). -/
theorem Mapper.prgRamRead_prgRamWrite (m : Mapper) (k j : Nat) (v : Byte) :
    (m.prgRamWrite k v).prgRamRead j = if j = k then v else m.prgRamRead j := Memory.read_write_none ..

/-- Settles O19, by the part of the cartridge's window an address is in. -/
theorem cartridgeRamAndRomAccesses : Obligations.CartridgeRamAndRomAccesses := by
  intro s a b v
  refine ⟨fun alow ahigh blow bhigh => ?ram, fun low => ?read, fun rom nrom => ?nrom,
    fun rom mmc1 => busWrite_serial mmc1 rom v, fun rom => ?prg⟩
  case ram =>
    have sameIndex : b.toNat - 0x6000 = a.toNat - 0x6000 ↔ b = a := by rw [BitVec.toNat_eq]; omega
    rw [busWrite_cartridgeRam alow ahigh, busRead_cartridgeRam blow bhigh, busRead_cartridgeRam blow bhigh,
      State.setMapper_mapper, Mapper.prgRamRead_prgRamWrite, if_congr sameIndex rfl rfl]
    exact ⟨rfl, rfl⟩
  case read =>
    obtain high | rom := Nat.lt_or_ge b.toNat 0x8000
    · rw [busRead_cartridgeRam low high]
    · rw [busRead_prgRom rom]
  case nrom =>
    simp only [busWrite_prgRom rom, Mapper.prgWrite, nrom]
    rfl
  case prg => rw [busWrite_prgRom rom, State.setMapper_mapper, Mapper.prgWrite_prg]

/-! ### The MMC1's serial port (R631, R633) -/

/-- The shifter after a serial write of `d` with bit 7 clear. -/
def shiftedIn (sr : BitVec 5) (d : Byte) : BitVec 5 := (sr >>> 1) ||| (if bit d 0 then 0x10#5 else 0#5)

theorem toNat_shiftedIn (sr : BitVec 5) (d : Byte) : (shiftedIn sr d).toNat = sr.toNat / 2 + 16 * (d.toNat % 2) := by
  have low : sr.toNat / 2 < 2 ^ 4 := by omega
  have bit0 : (if bit d 0 then 0x10#5 else 0#5).toNat = 2 ^ 4 * (d.toNat % 2) := by
    rw [bit_eq_decide, pow_zero, Nat.div_one]
    obtain h | h := Nat.mod_two_eq_zero_or_one d.toNat <;> simp [h]
  rw [shiftedIn, BitVec.toNat_or, BitVec.toNat_ushiftRight, Nat.shiftRight_eq_div_pow, pow_one, bit0, Nat.lor_comm,
    ← Nat.two_pow_add_eq_or_of_lt low, Nat.add_comm]

/-- Five bits shifted in, the first lowest, leave nothing of what the shifter held. -/
theorem shiftedIn_five (sr : BitVec 5) (d0 d1 d2 d3 d4 : Byte) :
    shiftedIn (shiftedIn (shiftedIn (shiftedIn (shiftedIn sr d0) d1) d2) d3) d4 =
      BitVec.ofNat 5
        (d0.toNat % 2 + 2 * (d1.toNat % 2) + 4 * (d2.toNat % 2) + 8 * (d3.toNat % 2) + 16 * (d4.toNat % 2)) := by
  refine ofNat_toNat_eq ?_
  simp only [toNat_shiftedIn]
  omega

theorem Mapper.serialWrite_of_reset {d : Byte} (reset : 128 ≤ d.toNat) (m : Mapper) (a : Addr) :
    m.serialWrite a d = { m with sr := 0#5, count := 0, control := m.control ||| 0x0C#5 } :=
  if_pos ((bit_seven_eq d).trans (decide_eq_true reset))

/-- The serial shifter and its count written. -/
def Mapper.withShifter (m : Mapper) (sr : BitVec 5) (count : Nat) : Mapper := { m with sr := sr, count := count }

/-- A serial write with bit 7 clear shifts, and the fifth loads the register its address selects. -/
theorem Mapper.serialWrite_of_data {d : Byte} (data : d.toNat < 128) (m : Mapper) (a : Addr) :
    m.serialWrite a d =
      if m.count + 1 = 5 then (m.loadRegister a (shiftedIn m.sr d)).withShifter 0#5 0
      else m.withShifter (shiftedIn m.sr d) (m.count + 1) :=
  if_neg (by rw [bit_seven_eq, decide_eq_true_eq]; omega)

theorem mirrorOf_eq (r : BitVec 5) :
    mirrorOf r = [.singleLower, .singleUpper, .vertical, .horizontal].getD (r.toNat % 4) .horizontal := by
  revert r
  decide

/-- The register that an address of ROM space selects (R631). -/
theorem Mapper.loadRegister_eq {a : Addr} (rom : 0x8000 ≤ a.toNat) (m : Mapper) (r : BitVec 5) :
    (m.loadRegister a r).withShifter 0#5 0 =
      if a.toNat < 0xA000 then { m with sr := 0#5, count := 0, control := r, mirroring := mirrorOf r }
      else if a.toNat < 0xC000 then { m with sr := 0#5, count := 0, chr0 := r }
      else if a.toNat < 0xE000 then { m with sr := 0#5, count := 0, chr1 := r }
      else { m with sr := 0#5, count := 0, prgBank := r } := by
  split_ifs
  · have range : a.toNat / 0x2000 % 4 = 0 := by omega
    simp only [Mapper.loadRegister, range, Mapper.withShifter]
  · have range : a.toNat / 0x2000 % 4 = 1 := by omega
    simp only [Mapper.loadRegister, range, Mapper.withShifter]
  · have range : a.toNat / 0x2000 % 4 = 2 := by omega
    simp only [Mapper.loadRegister, range, Mapper.withShifter]
  · have range : a.toNat / 0x2000 % 4 = 3 := by omega
    simp only [Mapper.loadRegister, range, Mapper.withShifter]

/-- No register that is loaded depends on the shifter. -/
theorem Mapper.withShifter_loadRegister (m : Mapper) (sr : BitVec 5) (n : Nat) (a : Addr) (r : BitVec 5) :
    ((m.withShifter sr n).loadRegister a r).withShifter 0#5 0 = (m.loadRegister a r).withShifter 0#5 0 := by
  unfold Mapper.loadRegister
  split <;> rfl

section
variable {m : Mapper} (mmc1 : m.kind = .mmc1) {a : Addr} (rom : 0x8000 ≤ a.toNat) {d : Byte} (data : d.toNat < 128)
  (s : State) (sr : BitVec 5)
include mmc1 rom data

/-- One of the first four serial writes shifts. -/
theorem busWrite_shifts {n : Nat} (early : n < 4) :
    busWrite a d (s.setMapper (m.withShifter sr n)) = s.setMapper (m.withShifter (shiftedIn sr d) (n + 1)) := by
  have shifts : (m.withShifter sr n).serialWrite a d = m.withShifter (shiftedIn sr d) (n + 1) :=
    (Mapper.serialWrite_of_data data ..).trans (if_neg (show ¬ n + 1 = 5 by omega))
  rw [busWrite_serial (s := s.setMapper (m.withShifter sr n)) mmc1 rom, State.setMapper_mapper, shifts]
  rfl

/-- The fifth loads a register. -/
theorem busWrite_loads :
    busWrite a d (s.setMapper (m.withShifter sr 4)) =
      s.setMapper ((m.loadRegister a (shiftedIn sr d)).withShifter 0#5 0) := by
  have loads : (m.withShifter sr 4).serialWrite a d = (m.loadRegister a (shiftedIn sr d)).withShifter 0#5 0 := by
    rw [Mapper.serialWrite_of_data data, if_pos (show (m.withShifter sr 4).count + 1 = 5 from rfl)]
    exact m.withShifter_loadRegister ..
  rw [busWrite_serial (s := s.setMapper (m.withShifter sr 4)) mmc1 rom, State.setMapper_mapper, loads]
  rfl

end

/-- Five serial writes from an empty shifter load the register that the fifth address selects (R631). -/
theorem busWrite_five {s : State} (mmc1 : s.mapper.kind = .mmc1) (empty : s.mapper.count = 0)
    {a0 a1 a2 a3 a4 : Addr} (rom : ∀ a ∈ [a0, a1, a2, a3, a4], 0x8000 ≤ a.toNat)
    {d0 d1 d2 d3 d4 : Byte} (data : ∀ d ∈ [d0, d1, d2, d3, d4], d.toNat < 128) :
    busWrite a4 d4 (busWrite a3 d3 (busWrite a2 d2 (busWrite a1 d1 (busWrite a0 d0 s)))) =
      s.setMapper (Mapper.withShifter (s.mapper.loadRegister a4 (BitVec.ofNat 5
        (d0.toNat % 2 + 2 * (d1.toNat % 2) + 4 * (d2.toNat % 2) + 8 * (d3.toNat % 2) + 16 * (d4.toNat % 2))))
          0#5 0) := by
  simp only [List.forall_mem_cons, List.not_mem_nil, false_imp_iff, implies_true, and_true] at rom data
  obtain ⟨rom0, rom1, rom2, rom3, rom4⟩ := rom
  obtain ⟨data0, data1, data2, data3, data4⟩ := data
  have start : s.setMapper (s.mapper.withShifter s.mapper.sr 0) = s := by rw [← empty]; rfl
  have first := busWrite_shifts mmc1 rom0 data0 s s.mapper.sr (n := 0) (by decide)
  rw [start] at first
  rw [first, busWrite_shifts mmc1 rom1 data1 s _ (by decide), busWrite_shifts mmc1 rom2 data2 s _ (by decide),
    busWrite_shifts mmc1 rom3 data3 s _ (by decide), busWrite_loads mmc1 rom4 data4, shiftedIn_five]

/-- Settles O57: the five writes of `busWrite_five`, and the reset of the shifter. -/
theorem serialWritesSetOneRegister : Obligations.SerialWritesSetOneRegister := by
  intro s a0 a1 a2 a3 a4 d0 d1 d2 d3 d4 mmc1 rom
  refine ⟨fun empty data => ?_, fun reset => ?_, fun empty => ?_⟩
  · rw [busWrite_five mmc1 empty rom data, Mapper.loadRegister_eq (rom a4 (by simp)), mirrorOf_eq]
  · rw [busWrite_serial mmc1 (rom a0 (by simp)), Mapper.serialWrite_of_reset reset]
  · rw [busWrite_five mmc1 empty (by simp) (by simp)]
    exact ⟨rfl, rfl, rfl⟩

/-! ### PRG ROM by its banks (R630, R635) -/

theorem Mapper.prgMode_eq (m : Mapper) : (m.control >>> 2).toNat &&& 3 = m.prgMode := by
  rw [BitVec.toNat_ushiftRight, Nat.shiftRight_eq_div_pow]
  exact Nat.and_two_pow_sub_one_eq_mod _ 2

theorem Mapper.prgMode_cases (m : Mapper) : m.prgMode = 0 ∨ m.prgMode = 1 ∨ m.prgMode = 2 ∨ m.prgMode = 3 := by
  unfold Mapper.prgMode
  omega

/-- The upper half of a window is what is not its lower half. -/
theorem decide_ge_eq_not_lt (n k : Nat) : decide (k ≤ n) = !decide (n < k) := by
  rw [← decide_not, decide_eq_decide, Nat.not_lt]

/-- The bank an address reads on the MMC1, by the PRG mode and the half of ROM space. -/
theorem Mapper.prgBankAt_eq (m : Mapper) (a : Addr) :
    m.prgBankAt a =
      let b := m.prgBank.toNat % 16
      if m.prgMode = 2 then (if a.toNat < 0xC000 then 0 else b % m.prgUnits)
      else if m.prgMode = 3 then (if a.toNat < 0xC000 then b % m.prgUnits else m.prgUnits - 1)
      else if a.toNat < 0xC000 then (b - b % 2) % m.prgUnits else (b - b % 2 + 1) % m.prgUnits := by
  unfold Mapper.prgBankAt
  rw [decide_ge_eq_not_lt]
  obtain mode | mode | mode | mode := m.prgMode_cases <;> by_cases lower : a.toNat < 0xC000 <;> simp [mode, lower]

/-- Settles O58, by the variant and the PRG mode. -/
theorem programBanksAreRead : Obligations.ProgramBanksAreRead := by
  intro s a rom units image n16 b at'
  have within : a.toNat &&& 0x3FFF = a.toNat % 16384 := Nat.and_two_pow_sub_one_eq_mod _ 14
  have bank : s.mapper.prgBank.toNat % 16 = b := (Nat.and_two_pow_sub_one_eq_mod _ 4).symm
  have pair : b - b % 2 = b &&& 0x0E := by
    have evens : ∀ n < 16, n - n % 2 = n &&& 0x0E := by decide
    exact evens b (by omega)
  rw [busRead_prgRom rom, Mapper.prgMode_eq]
  cases variant : s.mapper.kind with
  | nrom => simp only [Mapper.prgRead, Mapper.prgOffset, variant, image, n16]
  | mmc1 =>
    have read : s.mapper.prgRead a = at' (s.mapper.prgBankAt a) := by
      simp only [Mapper.prgRead, Mapper.prgOffset, variant, at', image, within]
    simp only [read, Mapper.prgBankAt_eq, bank, pair]
    obtain mode | mode | mode | mode := s.mapper.prgMode_cases
    all_goals
      rw [mode]
      exact apply_ite at' (a.toNat < 0xC000) _ _

/-! ### CHR by its banks (R627, R630, R636) -/

/-- The CHR mode bit in whole numbers (R634). -/
theorem Mapper.chrMode_eq (m : Mapper) : m.chrMode = !decide (m.control.toNat < 16) := by
  rw [Mapper.chrMode, getLsbD_eq_decide, ← decide_ge_eq_not_lt, decide_eq_decide]
  omega

/-- The 4 KiB bank that the MMC1's registers name for an address, before it is taken modulo the size (R636). -/
def Mapper.chrBankAt (m : Mapper) (a : VAddr) : Nat :=
  let pair := m.chr0.toNat - m.chr0.toNat % 2
  if m.control.toNat < 16 then (if a.toNat < 0x1000 then pair else pair + 1)
  else if a.toNat < 0x1000 then m.chr0.toNat else m.chr1.toNat

theorem Mapper.chrOffset_of_mmc1 {m : Mapper} (mmc1 : m.kind = .mmc1) (a : VAddr) :
    m.chrOffset a = m.chrBankAt a % (2 * m.chrUnits) * 4096 + a.toNat % 4096 := by
  unfold Mapper.chrOffset Mapper.chrBankAt
  rw [Mapper.chrMode_eq, mmc1, decide_ge_eq_not_lt]
  by_cases mode : m.control.toNat < 16 <;> by_cases lower : a.toNat < 0x1000 <;>
    simp only [mode, lower, decide_true, decide_false, Bool.not_true, Bool.not_false, if_true, if_false]

theorem ppuRead_pattern {a : VAddr} (pattern : a.toNat < 0x2000) (m : Mapper) (p : Ppu) :
    ppuRead m p a = m.chrRead a := if_pos pattern

/-- A pattern-table address reads inside CHR of at least one unit. -/
theorem Mapper.chrOffset_within {m : Mapper} (units : 1 ≤ m.chrUnits) {a : VAddr} (pattern : a.toNat < 0x2000) :
    m.chrOffset a < 8192 * m.chrUnits := by
  cases variant : m.kind with
  | nrom =>
    simp only [Mapper.chrOffset, variant]
    omega
  | mmc1 =>
    rw [Mapper.chrOffset_of_mmc1 variant]
    have bank := Nat.mod_lt (m.chrBankAt a) (show 0 < 2 * m.chrUnits by omega)
    omega

/-- Settles O59, by the variant and the CHR mode. -/
theorem characterBanksAreRead : Obligations.CharacterBanksAreRead := by
  intro m p a pattern units n4 at'
  have within : a.toNat &&& 0x0FFF = a.toNat % 4096 := Nat.and_two_pow_sub_one_eq_mod _ 12
  have pair : m.chr0.toNat - m.chr0.toNat % 2 = m.chr0.toNat &&& 0x1E := by
    have evens : ∀ n < 32, n - n % 2 = n &&& 0x1E := by decide
    exact evens _ m.chr0.isLt
  refine ⟨?offset, Mapper.chrOffset_within units pattern, ppuRead_pattern pattern m p, fun b patternb same => ?byte⟩
  case offset =>
    cases variant : m.kind with
    | nrom => simp only [Mapper.chrOffset, variant]
    | mmc1 =>
      simp only [Mapper.chrOffset_of_mmc1 variant, Mapper.chrBankAt, pair, ← within]
      split_ifs <;> rfl
  case byte =>
    rw [ppuRead_pattern pattern, ppuRead_pattern patternb, Mapper.chrRead, Mapper.chrRead, same]

end Sys2Proof.Machine
end

section
/-!
PROOFS. The internal reset, power() and reset() (70_reset_and_hazards.md R670 to R674).
-/

namespace Sys2Proof.Machine

/-! ### The internal reset (R672) -/

theorem tick_ticks (n : Nat) (s : State) : tick (ticks n s) = ticks (n + 1) s :=
  (Function.iterate_succ_apply' tick n s).symm

/-- A push that the reset suppresses: its tick and its step of S, with no write. -/
def skippedPush (s : State) : State := (tick s).setSp ((tick s).sp - 1#8)

theorem skippedPush_eq (s : State) : skippedPush s = (tick s).setSp (s.sp - 1#8) := by
  rw [skippedPush, tick_sp]

theorem skippedPush_setSp (s : State) (sp : Byte) : skippedPush (s.setSp sp) = (tick s).setSp (sp - 1#8) := by
  rw [skippedPush, tick_setSp]
  rfl

/-- The internal reset by its steps: two ticks, three suppressed pushes, I set, and the vector read. -/
theorem internalReset_pushes (s : State) :
    internalReset s =
      (let u := skippedPush (skippedPush (skippedPush (tick (tick s))))
      let (target, t) := read16 0xFFFC#16 0xFFFD#16 (u.setP (u.p.setI true))
      t.setPc target) := rfl

/-- So it is 7 ticks, with S three less, I set and the pc from the reset vector. -/
theorem internalReset_eq (s : State) :
    internalReset s =
      (((ticks 7 s).setSp (s.sp - 3#8)).setP (s.p.setI true)).setPc
        (word (s.mapper.prgRead 0xFFFD#16) (s.mapper.prgRead 0xFFFC#16)) := by
  have threeLess : s.sp - 1#8 - 1#8 - 1#8 = s.sp - 3#8 := by rw [BitVec.sub_sub, BitVec.sub_sub]; rfl
  have pushes : skippedPush (skippedPush (skippedPush (ticks 2 s))) = (ticks 5 s).setSp (s.sp - 3#8) := by
    rw [skippedPush_eq (ticks 2 s), skippedPush_setSp, skippedPush_setSp, tick_ticks, tick_ticks, tick_ticks, ticks_sp,
      threeLess]
  have vector := read16_at_prgRom (targetOf_vector (a := 0xFFFC#16) (by decide))
    (targetOf_vector (a := 0xFFFD#16) (by decide))
  rw [internalReset_pushes, ← ticks_one, ← ticks_one, ← ticks_add]
  dsimp only
  rw [pushes, vector, ticks_setP, ticks_setSp, ← ticks_add, State.setP_mapper, State.setSp_mapper, State.setSp_p,
    ticks_mapper, ticks_p]

/-! What a state is after `n` ticks and a write of S, the flags and the pc. -/

theorem cpuIs_ticks_registers (n : Nat) (s : State) (sp : Byte) (p : Flags) (pc : Addr) :
    CpuIs ((((ticks n s).setSp sp).setP p).setPc pc) s.a s.x s.y sp pc p := by
  constructor <;> simp

theorem waited_ticks_registers (n : Nat) (s : State) (sp : Byte) (p : Flags) (pc : Addr) :
    Waited n s ((((ticks n s).setSp sp).setP p).setPc pc) := by
  have waited := Waited.ticks n s
  generalize ticks n s = u at waited ⊢
  exact waited.registers rfl

theorem internalReset_cpuIs (s : State) :
    CpuIs (internalReset s) s.a s.x s.y (s.sp - 3#8)
      (word (s.mapper.prgRead 0xFFFD#16) (s.mapper.prgRead 0xFFFC#16)) (s.p.setI true) := by
  rw [internalReset_eq]
  exact cpuIs_ticks_registers ..

theorem internalReset_ram (s : State) : (internalReset s).ram = s.ram := by
  rw [internalReset_eq, State.setPc_ram, State.setP_ram, State.setSp_ram, ticks_ram]

theorem internalReset_waited (s : State) : Waited 7 s (internalReset s) := by
  rw [internalReset_eq]
  exact waited_ticks_registers ..

/-- Settles O7: reset() is the internal reset of the state with the NMI latch cleared. -/
theorem warmResetKeepsTheRest : Obligations.WarmResetKeepsTheRest := fun s =>
  ⟨internalReset_cpuIs (s.setNmi false), internalReset_ram (s.setNmi false), internalReset_waited (s.setNmi false)⟩

/-! ### Dots of a visible line with rendering off -/

/-- The PPU `k` dots further on its line. -/
def Ppu.dotsOn (p : Ppu) (k : Nat) : Ppu := { p with dot := p.dot + k }

/-- With rendering off a dot within a visible line moves the position alone (R560, R562). -/
theorem dotStep_of_off {s : State} (visible : s.ppu.scanline < 240) (off : s.ppu.rendering = false)
    (within : s.ppu.dot < 340) : s.dotStep = s.setPpu (s.ppu.dotsOn 1) := by
  have step : s.ppu.step s.mapper = s.ppu.dotsOn 1 := by
    rw [Ppu.step_of_idle fun on => Bool.false_ne_true (off.symm.trans on.1), Ppu.status_of_visible visible,
      Ppu.advance, if_neg (by omega), Ppu.dotsOn]
  have noNmi : s.ppu.raisesNmi = false := by
    rw [Ppu.raisesNmi, Ppu.atVblankStart, decide_eq_false (by omega), Bool.false_and]
  have noFrame : s.ppu.completesFrame = false := decide_eq_false (by omega)
  simp only [State.dotStep, step, noNmi, noFrame, Bool.or_false, Bool.false_eq_true, if_false]
  rfl

/-- So do as many as stay within the line. -/
theorem dotSteps_of_off {s : State} (visible : s.ppu.scanline < 240) (off : s.ppu.rendering = false) (k : Nat)
    (within : s.ppu.dot + k ≤ 340) : State.dotStep^[k] s = s.setPpu (s.ppu.dotsOn k) := by
  induction k with
  | zero => rfl
  | succ k ih =>
    rw [Function.iterate_succ_apply', ih (by omega)]
    exact dotStep_of_off visible off within

/-- A tick is three dots and one cycle (R12). -/
theorem tick_addCycles (s : State) (c : Int) : tick (s.addCycles c) = (State.dotStep^[3] s).addCycles (c - 1) :=
  congrArg (fun r => { s.dotStep.dotStep.dotStep with remainingCycles := r }) (add_sub_assoc s.remainingCycles c 1)

theorem ticks_eq_dotSteps (n : Nat) (s : State) : ticks n s = (State.dotStep^[3 * n] s).addCycles (-n) := by
  induction n with
  | zero => exact congrArg (fun c => { s with remainingCycles := c }) (add_zero s.remainingCycles).symm
  | succ n ih =>
    rw [Nat.add_comm, ticks_add, ticks_one, ih, tick_addCycles, ← Function.iterate_add_apply,
      show 3 * (1 + n) = 3 + 3 * n by omega, show -((1 + n : Nat) : Int) = -n - 1 by omega]

/-! ### power() (R670) -/

/-- The PPU's first 21 dots after its power-on change its position alone. -/
theorem ticks_poweredOn (s : State) :
    ticks 7 s.poweredOn = (s.poweredOn.setPpu ((Ppu.powerOn s.draws).dotsOn 21)).addCycles (-7) := by
  have visible : s.poweredOn.ppu.scanline < 240 := show 0 < 240 by decide
  have off : s.poweredOn.ppu.rendering = false :=
    (Ppu.rendering_eq_false_iff _).mpr (show 0#8 &&& 0x18#8 = 0#8 by decide)
  have within : s.poweredOn.ppu.dot + 21 ≤ 340 := show 0 + 21 ≤ 340 by decide
  rw [ticks_eq_dotSteps, dotSteps_of_off visible off _ within]
  rfl

/-- Settles O6: power() is the internal reset of the values it sets. -/
theorem powerOnValues : Obligations.PowerOnValues := by
  intro s
  refine ⟨fun unloaded => if_neg (by simp [unloaded]), fun loaded => ⟨_, if_pos loaded, ?_⟩⟩
  have cpu := internalReset_cpuIs s.poweredOn
  have ram := internalReset_ram s.poweredOn
  obtain ⟨fixed, devices, mapper, cycles⟩ := internalReset_waited s.poweredOn
  have ppu := devices.ppu
  have nmi := devices.nmiPending
  rw [ticks_poweredOn] at ppu nmi
  refine ⟨cpu, fun k => ?_, nmi, fixed.irqLine, cycles, mapper, fixed.params, fixed.cartLoaded.trans loaded, ?_⟩
  · rw [State.ramAt, ram, fixed.params]
    rfl
  · rw [ppu]
    refine ⟨rfl, rfl, rfl, rfl, rfl, rfl, rfl, rfl, rfl, rfl, rfl, rfl, rfl, rfl, rfl, rfl, rfl, rfl, rfl, rfl, rfl,
      rfl, rfl, rfl, rfl⟩

/-- Settles O8, by evaluation, and the invariant by `State.reset_ok`. -/
theorem resetStateHoldsThePowerOnValues : Obligations.ResetStateHoldsThePowerOnValues :=
  ⟨⟨rfl, rfl, rfl, rfl, rfl, rfl⟩, by decide, fun _ => rfl, rfl, rfl, rfl, rfl, rfl, rfl,
    (State.inv_iff _).mpr State.reset_ok⟩

end Sys2Proof.Machine
end
